-- ==== Sys2Proof/Word.lean ====
section
/-! DEFINITION. The words of the machine: bytes, 64-bit words and sparse tables. -/

namespace Sys2Proof

/-- One byte (R3). -/
abbrev Byte := BitVec 8

/-- One 64-bit word. -/
abbrev Word := BitVec 64

/-- A sparse table: (key, value) pairs. A key that is not listed holds the table's own default.
It is the form of memories, register files and register arrays alike; see Machine/Tab.lean. -/
abbrev Tab (α : Type) := List (Nat × α)

end Sys2Proof
end

