-- ==== Sys2Proof/Machine/MgmtState.lean ====
section
/-! DEFINITION. What a log record holds, and codes of errors (Table 00-5 and the code table of each chapter). -/

namespace Sys2Proof.Machine

/-- An error code (R8). 0 is success. -/
abbrev Code := Nat

/-- A log record (Table 15-3), its CRC left to the moment it is read. -/
structure LogRec where
  index : Nat
  ftime : Word
  htime : Word
  code : Code
  prov : Bool
  remote : Bool
  attention : Bool
  srcId : Nat
  unit : Nat
  part : Option Nat
  addr : Option Nat
  detail : Nat
  epoch : Word
  boot : Nat
deriving DecidableEq, Repr

/-- What a unit hands over for a log record. -/
structure LogArg where
  code : Code
  unit : Nat
  srcId : Option Nat := none
  part : Option Nat := none
  addr : Option Nat := none
  detail : Nat := 0
  prov : Bool := false
  remote : Bool := false
deriving DecidableEq, Repr

/-- The fields of a firmware image that checks and later rules read (Table 15-4). -/
structure FwInfo where
  fwSvn : Nat := 0
  keySvn : Nat := 0
  advance : Bool := false
  version : Word := 0
  features : BitVec 256 := 0
  digest : BitVec 512 := 0
deriving DecidableEq, Repr

/-- The hearth and the security engine (Tables 15-8, 15-9). Fuses: FW_SVN and KEY_SVN as counts of blown bits. -/
structure Mgmt where
  err : Bool := false
  errCode : Code := 0
  identity : Bool := false
  /-- the wrapped identity seed stands in the flash (R371) -/
  seed : Bool := false
  debugOpen : Bool := false
  /-- debug opens at the next reset release (R376) -/
  debugNext : Bool := false
  debugSeen : Bool := false
  mgmtKey : Option Nat := none
  keys : Tab (Option Nat) := []
  standby : Bool := false
  thermal : Bool := false
  attention : Bool := false
  quench : Bool := false
  attnCode : Code := 0
  attnCount : Nat := 0
  logNext : Nat := 0
  logOldest : Nat := 0
  logDropped : Word := 0
  /-- records dropped since the queue was last full, still to be reported (R363) -/
  dropPend : Nat := 0
  queue : List LogRec := []
  flash : List LogRec := []
  boots : Nat := 0
  /-- model: clock at which the hearth last powered up; HEARTH_TIME counts from it -/
  upAt : Nat := 0
  lastNonce : Word := 0
  fuseFw : Nat := 0
  fuseKey : Nat := 0
  debugLock : Bool := false
  rootSet : Bool := false
  rootHash : BitVec 512 := 0
  uniqueId : Word := 0
  dbgNonce : Option (BitVec 256) := none
  /-- the image delivered and in VERIFY, and the one that runs -/
  image : Option (List Byte) := none
  fw : Option FwInfo := none
  /-- mailbox that delivered the image: function and mailbox; none for a PLDM delivery -/
  fwFrom : Option (Nat × Nat) := none
  /-- readings of the sensors: temperatures in 1/16 degrees, rails in mV -/
  temps : Tab Int := []
  rails : Tab Nat := []
  /-- when a rail was found outside its limits (R359) -/
  railBad : Tab (Option Nat) := []
  railLogged : Tab Bool := []
  mirrorSeq : Nat := 0
  mirror : Tab Byte := []
deriving DecidableEq, Repr

/-- The power controller (Tables 13-9, 13-10). `level` is the ladder level: 0 is OP7, 7 is OP0 at duty 8/8, 14 is OP0
at duty 1/8 (R326). -/
structure Pwr where
  level : Nat := 7
  gated : Bool := false
  capUn : Bool := false
  err : Bool := false
  errCode : Code := 0
  inputLimit : Bool := false
  cap : Nat := 2000
  power : Nat := 0
  volts : Nat := 0
  req : BitVec 64 := 0x3FFFFFFFFFFFFFFF
  on : BitVec 64 := 0
  tWarn : Nat := 0x64
  tThrottle : Nat := 0x6C
  tjMax : Int := 0
  sensor : Nat := 0
  warn : Bool := false
  throttle : Bool := false
  warnCool : Option Nat := none
  throttleCool : Option Nat := none
  memoryHot : Bool := false
  quenchCause : Nat := 0
  learned : Tab Nat := []
  lastOp : Tab Nat := []
  energy : Word := 0
  shared : Word := 0
  /-- samples of the current millisecond, newest first -/
  samples : List Nat := []
  /-- since when the mean has stayed at or below the cap (R330) -/
  capOkSince : Option Nat := none
  /-- hints: partition, class, START, DURATION, level once it governs, power samples -/
  hints : List (Nat × Nat × Nat × Nat × Option Nat) := []
deriving DecidableEq, Repr

/-- A reset in its stretch (R340, R341): kind as RST_CAUSE numbers it, acceptance time, deep standby at its release (R361). -/
structure Stretch where
  kind : Nat
  at' : Nat
  standby : Bool := false
deriving DecidableEq, Repr

/-- The reset block (Tables 14-8, 14-9), and the pins. -/
structure Rst where
  stage : Nat := 0
  err : Bool := false
  errCode : Code := 0
  blockBusy : Option Nat := none
  kind : Nat := 0
  source : Nat := 0
  remoteId : Nat := 0
  failCount : Nat := 0
  banked : Bool := false
  lastStage : Nat := 0
  /-- flash mirror of BOOT_RETAIN: FAIL_COUNT, BANKED, LAST_STAGE (R351) -/
  mirror : Nat × Bool × Nat := (0, false, 0)
  fullMs : Nat := 0
  stretch : Option Stretch := none
  /-- a start attempt is running, with its acceptance time (R350) -/
  attempt : Option Nat := none
  released : Nat := 0
  /-- since when SERVICE.STATE has been 1 without a break -/
  fullSince : Option Nat := none
  /-- the dispatch processor is restarting after a compute reset (R343) -/
  restarting : Bool := false
  quenched : Bool := false
  supply : Bool := true
  coolantOk : Bool := true
  tripLow : Bool := false
  rstOutLow : Bool := false
deriving DecidableEq, Repr

end Sys2Proof.Machine
end

