-- ==== Sys2Proof/Machine/MemState.lean ====
section
/-! DEFINITION. The state of the memory tiers and of their guards (chapter 06), and what a request carries. -/

namespace Sys2Proof.Machine

/-- What a request does (KIND of Table 06-21). -/
inductive Kind
  | read | write | acc | fetch
deriving DecidableEq, Repr

/-- What the protection code of the tier finds at the access (R154): the environment's part of a request. An uncorrectable error
lies in the unit that holds byte `off` of the access. -/
inductive Ecc
  | clean | corrected
  | uncorrectable (off : Nat)
deriving DecidableEq, Repr

/-- Where an HBM4 address lies (R128): stack, page within the stack, address within the stack, pseudo-channel. -/
structure HbmPlace where
  stack : Nat
  sp : Nat
  addr : Nat
  pch : Nat
deriving DecidableEq, Repr

/-- Where an LPDDR6 address lies (R128): package, address within the package. -/
structure LpddrPlace where
  pkg : Nat
  addr : Nat
deriving DecidableEq, Repr

/-- Where the answer to a request goes: kept with a held request. -/
inductive Origin
  | plain
  /-- mover `m` of core `c`, descriptor sequence number, part (0 elements, 1 scales, 2 indices, 3 given scales), first -/
  | desc (c m seq what k0 : Nat)
  /-- a packet of a remote peer: source, class, VC, SEQ, its DST and MC fields -/
  | packet (src cls vc seq dst : Nat) (mcast : Bool)
deriving DecidableEq, Repr

/-- A request at a memory target (R130). `part` is the requester's own partition; none for the rake, remote modules
and host software, which are judged by the union of the tables. -/
structure Req where
  unit : Nat
  srcId : Nat := 0
  remote : Bool := false
  part : Option Nat := none
  kind : Kind := .read
  addr : Nat
  len : Nat := 0
  data : List Byte := []
  prov : Bool := false
  epochLo : Nat := 0
  hint : Nat := 0
  /-- AUX and DST_TYPE of an ACCUMULATE -/
  op : Nat := 0
  ty : Nat := 0
  /-- descriptor sequence number of the issuing unit (R147) -/
  seq : Nat := 0
  /-- the module whose ID orders a late partial, where that is not the requester's (R147, R263) -/
  orderId : Option Nat := none
  /-- BANK_MASK of the descriptor, for a mover's access to its own local store (R108) -/
  mask : Option (BitVec 64) := none
  ecc : Ecc := .clean
  /-- the write-back of an evicted line meets an uncorrectable error at this byte of the line (Table 06-27) -/
  evictBad : Option Nat := none
  origin : Origin := .plain
deriving DecidableEq, Repr

/-- Outcome of a request. `full`: the unit's held queue is full and the request is not accepted (R136). -/
inductive MemRes
  | ok (data : List Byte)
  | held
  | full
  | refused (code : Code)
deriving DecidableEq, Repr

/-- A request held at its target, with its arrival (clock of the sync unit, ns). `timed`: it takes one of the 64 places of R136
and its 10 ms run. Not timed are the holds of an apply pass (`pass`, R148) and of a drain (R282), and a request of the rake that
found no place (`parked`, log entry 100). -/
structure Held where
  req : Req
  since : Nat
  timed : Bool
  /-- partition of the matching entry -/
  part : Nat
  pass : Bool := false
  parked : Bool := false
deriving DecidableEq, Repr

/-- A region entry (Table 06-4). -/
structure Region where
  base : Nat := 0
  limit : Nat := 0
  valid : Bool := false
  r : Bool := false
  w : Bool := false
  a : Bool := false
  remR : Bool := false
  remW : Bool := false
  remA : Bool := false
  hostR : Bool := false
  hostW : Bool := false
  guard : Nat := 0
  paired : Bool := false
  side : Bool := false
  cache : Bool := false
  det : Bool := false
deriving DecidableEq, Repr

/-- PAN_SPLITs (Table 06-24). -/
structure PanSplit where
  base : Nat := 0
  scratch : Nat := 0
  cache : Nat := 0
deriving DecidableEq, Repr

/-- A record of the deferral log (R146, R147). `prov`: created by a provisional request (R149). -/
structure DeferRec where
  srcId : Nat
  unit : Nat
  seq : Nat
  addr : Nat
  phys : Nat
  data : List Byte
  ty : Nat
  op : Nat
  epoch : Word
  prov : Bool
  det : Bool
  applied : Bool := false
deriving DecidableEq, Repr

/-- Memory state of a partition (partition block of Table 06-12). -/
structure PMem where
  regions : Tab Region := []
  err : Bool := false
  errCode : Code := 0
  faultAddr : Nat := 0
  faultSrc : Nat := 0
  flushBusy : Bool := false
  deferBase : Nat := 0
  deferSize : Nat := 0
  deferLog : List DeferRec := []
  panSplit : Tab PanSplit := []
deriving DecidableEq, Repr

/-- A pan slice or memory controller (Tables 06-13 to 06-17). -/
structure Mc where
  online : Bool := false
  training : Bool := false
  scrub : Bool := false
  encReady : Bool := false
  throttle : Nat := 0
  temp : Int := 0
  refresh : Nat := 0
  device : Nat := 0
  t1 : Nat := 0x5F
  t2 : Nat := 0x69
  cvt : Nat := 0
  applying : Bool := false
  eccCorr : Word := 0
  eccUncorr : Word := 0
  rdBytes : Word := 0
  wrBytes : Word := 0
  /-- since when the temperature has stayed 3 degrees below the trigger of the level (R151) -/
  coolSince : Option Nat := none
deriving DecidableEq, Repr

/-- A line of the pan cache: 128 bytes (R140). `age` orders uses; `bad` are bytes whose units the slice found uncorrectable. -/
structure CLine where
  part : Nat
  data : List Byte
  dirty : Bool
  keep : Bool
  age : Nat
  bad : List Nat := []
deriving DecidableEq, Repr

/-- Memory contents. Device addresses are the keys; cache lines are keyed by address / 128. -/
structure Mem where
  bytes : Tab Byte := []
  poison : Tab Bool := []
  cache : Tab (Option CLine) := []
  held : Tab (List Held) := []
  age : Nat := 0
  /-- generation of the LPDDR6 keys (R152, R153) -/
  keyGen : Nat := 0
deriving DecidableEq, Repr

end Sys2Proof.Machine
end

