-- ==== Sys2Proof/Machine/FabState.lean ====
section
/-! DEFINITION. The state of the fabric router and its endpoint, and a packet (chapter 08). -/

namespace Sys2Proof.Machine

/-- A packet: the fields of Tables 08-2 to 08-4 as they stand in the header, reserved ones included, and the
payload. -/
structure Pkt where
  dst : Nat
  src : Nat
  cls : Nat
  vc : Nat := 0
  ty : Nat
  prov : Bool := false
  epochLo : Nat := 0
  len : Nat
  hops : Nat := 0
  mcast : Bool := false
  retx : Bool := false
  syn : Bool := false
  rsvd : Nat := 0
  seq : Nat := 0
  offset : Nat := 0
  rsvd1 : Nat := 0
  ftime : Nat := 0
  aux : Nat := 0
  payload : List Byte := []
deriving DecidableEq, Repr

/-- Who asked for a packet, and so who learns of its completion. -/
inductive TxOrigin
  | none
  | mover (c m seq : Nat)
  | sync (counter : Nat)
  | rake (part entry inst : Nat)
  | drain (p : Nat)
  | serve (p client : Nat)
deriving DecidableEq, Repr

/-- Key of a transmit half (R200). -/
inductive TxKey
  | uni (id : Nat)
  | group (g : Nat)
deriving DecidableEq, Repr

/-- Key of a receive half (R200). -/
inductive RxKey
  | uni (id : Nat)
  | group (src g : Nat)
deriving DecidableEq, Repr

/-- An outstanding packet (R206), with what its members have answered (R210). `timer` restarts at a HELD ACK, which sets `held`. -/
structure OutPkt where
  pkt : Pkt
  who : TxOrigin
  held : Bool := false
  timer : Nat
  acked : List Nat := []
  fenced : List Nat := []
deriving DecidableEq, Repr

/-- A transmit half (R200, R201, R206). -/
structure TxHalf where
  key : TxKey
  next : Nat := 0
  out : List OutPkt := []
  retries : Nat := 0
  waiting : List (Pkt × TxOrigin) := []
  idleSince : Nat := 0
deriving DecidableEq, Repr

/-- A receive half (R200, R202 to R205). `held` are the SEQs held at a target with the time of the last HELD ACK. -/
structure RxHalf where
  key : RxKey
  base : Option Nat := none
  map : BitVec 64 := 0
  unacked : Nat := 0
  unackedBytes : Nat := 0
  oldest : Option Nat := none
  held : List (Nat × Nat) := []
  last : Nat := 0
deriving DecidableEq, Repr

/-- A route entry (Table 08-11). -/
structure Route where
  primary : BitVec 36 := 0
  alt : BitVec 36 := 0
  dateline : BitVec 36 := 0
  here : Bool := false
  valid : Bool := false
  fence : Bool := false
deriving DecidableEq, Repr

/-- A group entry (Table 08-12). -/
structure McGroup where
  mask : BitVec 40 := 0
  leaf : BitVec 36 := 0
  members : Nat := 0
  valid : Bool := false
  dateline : BitVec 36 := 0
deriving DecidableEq, Repr

/-- A packet in an output queue, with the bytes of it already sent; `home` names the entry of the input buffer that it came from. -/
structure QPkt where
  pkt : Pkt
  sent : Nat := 0
  home : Option Nat := none
deriving DecidableEq, Repr

/-- A packet that a link has delivered, as long as a chunk of it is in the input buffer of port `port` (R195): the 16-byte units left
there and the copies that have not left. A multicast packet stays `whole` until its last copy has left (R208); `here`: a copy waits
for a local port or the endpoint. -/
structure Inbound where
  id : Nat
  port : Nat
  cv : Nat
  units : Nat
  copies : Nat := 0
  whole : Bool := false
  here : Bool := false
  pkt : Pkt
deriving DecidableEq, Repr

/-- The completion of a multicast packet as its issuing unit has it (R210). -/
structure McReport where
  who : TxOrigin
  code : Code
  delivered : Nat
  fenced : Nat
  unreachable : Nat
deriving DecidableEq, Repr

/-- An output port: queues by class × 2 + VC, deficits of classes 1 to 3 and the class whose turn it is (R194),
chunks in the peer's buffer by class × 2 + VC; `inbuf` is the port's own input buffer: the units of each chunk in it, by class × 2 + VC
and in order of arrival (R195). -/
structure Port where
  queues : Tab (List QPkt) := []
  deficit : Tab Nat := []
  turn : Nat := 1
  used : Tab Nat := []
  inbuf : Tab (List Nat) := []
  tokens : Nat := 2
  tokenAt : Nat := 0
  c0wait : List Pkt := []
  encEn : Bool := false
  txBytes : Word := 0
  rxBytes : Word := 0
deriving DecidableEq, Repr

/-- The fabric block (Tables 08-17 to 08-19), tables and contexts. -/
structure Fab where
  err : Bool := false
  errCode : Code := 0
  id : Nat := 0
  timeout : Nat := 0x32
  retryMax : Nat := 8
  w1 : Nat := 4
  w2 : Nat := 3
  w3 : Nat := 1
  hdr0 : Word := 0
  hdr1 : Word := 0
  /-- FAB_FAULT_HDR0 and FAB_FAULT_HDR1 hold the header of a packet dropped or refused since ERR was cleared -/
  hdrSet : Bool := false
  drops : Word := 0
  routes : Tab Route := []
  groups : Tab McGroup := []
  tx : List TxHalf := []
  rx : List RxHalf := []
  ports : Tab Port := []
  /-- transmit requests that wait for a free context (R200) -/
  parked : List (TxKey × Pkt × TxOrigin) := []
  /-- read requests that an ACK has released and whose READ_RESP is still to come -/
  reads : List OutPkt := []
  /-- packets in the input buffers, and the number of the next one -/
  inbound : List Inbound := []
  nextIn : Nat := 0
  /-- the last multicast of the sync unit, the dispatch processor or the hearth controller that completed -/
  report : Option McReport := none
deriving DecidableEq, Repr

end Sys2Proof.Machine
end

