-- ==== Sys2Proof/Machine/Num.lean ====
section
/-! DEFINITION. Number formats and exact values (chapter 02). -/

namespace Sys2Proof.Num

/-- The element types of Table 02-1 with the BYTES designation of Table 05-2. -/
inductive Ty
  | e4m3 | e5m2 | e2m3 | e3m2 | e2m1 | mxint8 | int8 | bf16 | fp16 | fp32 | int32 | int64 | bytes
deriving DecidableEq, Repr

/-- The type codes of the vector slot and descriptors (Table 05-2); 12 to 14 are reserved. -/
def Ty.ofCode (n : Nat) : Option Ty :=
  match n with
  | 0 => some .e4m3 | 1 => some .e5m2 | 2 => some .e2m3 | 3 => some .e3m2 | 4 => some .e2m1
  | 5 => some .mxint8 | 6 => some .int8 | 7 => some .bf16 | 8 => some .fp16 | 9 => some .fp32
  | 10 => some .int32 | 11 => some .int64 | 15 => some .bytes | _ => none

/-- The code of a type in Table 05-2. -/
def Ty.code : Ty → Nat
  | .e4m3 => 0 | .e5m2 => 1 | .e2m3 => 2 | .e3m2 => 3 | .e2m1 => 4 | .mxint8 => 5 | .int8 => 6
  | .bf16 => 7 | .fp16 => 8 | .fp32 => 9 | .int32 => 10 | .int64 => 11 | .bytes => 15

/-- Width of one element in bits (Table 02-1; a BYTES element is one byte). -/
def Ty.bits : Ty → Nat
  | .e4m3 => 8 | .e5m2 => 8 | .e2m3 => 6 | .e3m2 => 6 | .e2m1 => 4 | .mxint8 => 8 | .int8 => 8
  | .bf16 => 16 | .fp16 => 16 | .fp32 => 32 | .int32 => 32 | .int64 => 64 | .bytes => 8

/-- The scalings of Table 02-3, with the codes of Table 03-3. -/
inductive Scaling
  | tensor | block16 | block32 | tile
deriving DecidableEq, Repr

def Scaling.ofCode (n : Nat) : Scaling :=
  match n % 4 with
  | 0 => .tensor | 1 => .block16 | 2 => .block32 | _ => .tile

/-- Length of a block along the reduction dimension; 0 for a per-tensor scale. -/
def Scaling.len : Scaling → Nat
  | .tensor => 0 | .block16 => 16 | .block32 => 32 | .tile => 32

/-- Scaling is per block or per tile. -/
def Scaling.blocky (k : Scaling) : Bool := k != .tensor

/-- Types with a scale of their own (Table 02-3). -/
def Ty.scaled : Ty → Bool
  | .e4m3 | .e5m2 | .e2m3 | .e3m2 | .e2m1 | .mxint8 => true
  | _ => false

/-- R23, Table 02-3: the scaling is permitted; an unscaled-only type takes per-tensor code 0x7F alone. -/
def scalingOk (t : Ty) (k : Scaling) (tscale : Nat) : Bool :=
  match t with
  | .e4m3 | .e5m2 | .e2m3 | .e3m2 | .e2m1 => true
  | .mxint8 => k != .block16
  | .bytes | .int8 | .fp32 | .fp16 | .bf16 | .int32 | .int64 => k == .tensor && tscale == 0x7F

/-- An exact value: NaN, an infinity, or a signed dyadic `(−1)^neg · m · 2^e`. A zero keeps its sign (R19). -/
inductive Val
  | nan
  | inf (neg : Bool)
  | fin (neg : Bool) (m : Nat) (e : Int)
deriving DecidableEq, Repr

/-- A floating-point format: fraction bits, bias, width of the exponent field and the largest finite code. -/
structure Fmt where
  p : Nat
  eb : Nat
  bias : Nat
  maxCode : Nat
  /-- code of +infinity, where the format has one -/
  infCode : Option Nat
  nanCode : Option Nat
deriving DecidableEq, Repr

def fmtE4M3 : Fmt := { p := 3, eb := 4, bias := 7, maxCode := 0x7E, infCode := none, nanCode := some 0x7F }
def fmtE5M2 : Fmt := { p := 2, eb := 5, bias := 15, maxCode := 0x7B, infCode := some 0x7C, nanCode := some 0x7E }
def fmtE2M3 : Fmt := { p := 3, eb := 2, bias := 1, maxCode := 0x1F, infCode := none, nanCode := none }
def fmtE3M2 : Fmt := { p := 2, eb := 3, bias := 3, maxCode := 0x1F, infCode := none, nanCode := none }
def fmtE2M1 : Fmt := { p := 1, eb := 2, bias := 1, maxCode := 0x7, infCode := none, nanCode := none }
def fmtBF16 : Fmt := { p := 7, eb := 8, bias := 127, maxCode := 0x7F7F, infCode := some 0x7F80, nanCode := some 0x7FC0 }
def fmtFP16 : Fmt := { p := 10, eb := 5, bias := 15, maxCode := 0x7BFF, infCode := some 0x7C00, nanCode := some 0x7E00 }
def fmtFP32 : Fmt :=
  { p := 23, eb := 8, bias := 127, maxCode := 0x7F7FFFFF, infCode := some 0x7F800000, nanCode := some 0x7FC00000 }
/-- The extended accumulator format (R52, Table 03-7). -/
def fmtExt : Fmt :=
  { p := 25, eb := 10, bias := 511, maxCode := 0x7FDFFFFFF, infCode := some 0x7FE000000, nanCode := some 0x7FF000000 }

/-- The floating-point format of a type; none for the integer types and BYTES. -/
def Ty.fmt : Ty → Option Fmt
  | .e4m3 => some fmtE4M3 | .e5m2 => some fmtE5M2 | .e2m3 => some fmtE2M3 | .e3m2 => some fmtE3M2
  | .e2m1 => some fmtE2M1 | .bf16 => some fmtBF16 | .fp16 => some fmtFP16 | .fp32 => some fmtFP32
  | _ => none

/-- Two's-complement reading of the low `w` bits of `n`. -/
def sext (w n : Nat) : Int :=
  let k := n % 2 ^ w
  if 2 * k < 2 ^ w then (k : Int) else (k : Int) - (2 ^ w : Nat)

/-- Low `w` bits of an integer, in two's complement. -/
def wrap (w : Nat) (z : Int) : Nat := (z % ((2 ^ w : Nat) : Int)).toNat

/-- An integer times `2^e` as an exact value; zero is +0. -/
def ofInt (z : Int) (e : Int) : Val := .fin (z < 0) z.natAbs e

/-- R19, R20: the exact value of a code of a floating-point format. -/
def Fmt.decode (f : Fmt) (code : Nat) : Val :=
  let w := 1 + f.eb + f.p
  let c := code % 2 ^ w
  let neg := c / 2 ^ (f.eb + f.p) == 1
  let mag := c % 2 ^ (f.eb + f.p)
  let ex := mag / 2 ^ f.p
  let fr := mag % 2 ^ f.p
  if f.maxCode < mag then
    (if f.infCode = some mag then .inf neg else .nan)
  else if ex = 0 then .fin neg fr (1 - (f.bias : Int) - f.p)
  else .fin neg (2 ^ f.p + fr) ((ex : Int) - f.bias - f.p)

/-- The value v(x) of an element code (R19 to R21); BYTES has no value set (R18) and reads as its number. -/
def Ty.decode (t : Ty) (code : Nat) : Val :=
  match t.fmt with
  | some f => f.decode code
  | none =>
    match t with
    | .mxint8 => ofInt (sext 8 code) (-6)
    | .int8 => ofInt (sext 8 code) 0
    | .int32 => ofInt (sext 32 code) 0
    | .int64 => ofInt (sext 64 code) 0
    | _ => ofInt (code % 256 : Nat) 0

/-- A value times 2^k. -/
def Val.scale (v : Val) (k : Int) : Val :=
  match v with
  | .fin s m e => .fin s m (e + k)
  | w => w

/-- R25: element code `x` of type `t` under E8M0 scale code `c`. -/
def decodeScaled (t : Ty) (x c : Nat) : Val :=
  if c = 0xFF then .nan else (t.decode x).scale ((c : Int) - 127)

def Val.isNan : Val → Bool
  | .nan => true
  | _ => false

def Val.isInf : Val → Bool
  | .inf _ => true
  | _ => false

def Val.finite (v : Val) : Bool := !v.isNan && !v.isInf

def Val.isZero : Val → Bool
  | .fin _ 0 _ => true
  | _ => false

def Val.neg : Val → Val
  | .nan => .nan
  | .inf s => .inf (!s)
  | .fin s m e => .fin (!s) m e

def Val.abs : Val → Val
  | .nan => .nan
  | .inf _ => .inf false
  | .fin _ m e => .fin false m e

def Val.sign : Val → Bool
  | .nan => false
  | .inf s => s
  | .fin s _ _ => s

/-- floor(log₂ |v|) of a non-zero finite value. -/
def ilog2 (m : Nat) (e : Int) : Int := (Nat.log2 m : Int) + e

/-- Signed magnitude of a finite value. -/
def sm (s : Bool) (m : Nat) : Int := if s then -(m : Int) else (m : Int)

/-- `z · 2^e` expressed in units of `2^k`, for `k ≤ e`. -/
def align (z : Int) (e k : Int) : Int := z * (2 ^ (e - k).toNat : Nat)

/-- Exact sum. An exact zero is +0 unless both summands are −0 (IEEE 754, round to nearest). -/
def Val.add (a b : Val) : Val :=
  match a, b with
  | .nan, _ => .nan
  | _, .nan => .nan
  | .inf s, .inf t => if s = t then .inf s else .nan
  | .inf s, .fin _ _ _ => .inf s
  | .fin _ _ _, .inf t => .inf t
  | .fin s m e, .fin t n f =>
    if m = 0 ∧ n = 0 then .fin (s && t) 0 0
    else if m = 0 then .fin t n f
    else if n = 0 then .fin s m e
    else
      let k := min e f
      let z := align (sm s m) e k + align (sm t n) f k
      if z = 0 then .fin false 0 0 else .fin (z < 0) z.natAbs k

/-- Exact product; an infinity times zero is NaN. -/
def Val.mul (a b : Val) : Val :=
  match a, b with
  | .nan, _ => .nan
  | _, .nan => .nan
  | .inf s, .inf t => .inf (s != t)
  | .inf s, .fin t n _ => if n = 0 then .nan else .inf (s != t)
  | .fin s m _, .inf t => if m = 0 then .nan else .inf (s != t)
  | .fin s m e, .fin t n f => .fin (s != t) (m * n) (e + f)

/-- `a < b` on values that are not NaN; −0 and +0 compare equal. -/
def Val.lt (a b : Val) : Bool :=
  match a, b with
  | .nan, _ => false
  | _, .nan => false
  | .inf s, .inf t => s && !t
  | .inf s, .fin _ _ _ => s
  | .fin _ _ _, .inf t => !t
  | .fin s m e, .fin t n f =>
    let k := min e f
    decide (align (sm s m) e k < align (sm t n) f k)

/-- Numerical equality; NaN equals nothing. -/
def Val.eqv (a b : Val) : Bool :=
  match a, b with
  | .nan, _ => false
  | _, .nan => false
  | .inf s, .inf t => s == t
  | .fin s m e, .fin t n f =>
    let k := min e f
    decide (align (sm s m) e k = align (sm t n) f k)
  | _, _ => false

/-- The order in which −0 lies below +0 (R74), on values that are not NaN. -/
def Val.ltz (a b : Val) : Bool :=
  a.lt b || (a.isZero && b.isZero && a.sign && !b.sign)

end Sys2Proof.Num
end

