-- ==== Sys2Proof/Machine/Slots.lean ====
section
/-! DEFINITION. The instructions of the four bundle slots and the mover descriptor, decoded
(Tables 05-3 to 05-8 and 05-11). -/

namespace Sys2Proof.Machine

/-- General register number. -/
abbrev G := BitVec 6
/-- Vector register number. -/
abbrev VReg := BitVec 5
/-- Predicate register number. -/
abbrev PReg := BitVec 3

/-- Three-register scalar operations (Table 05-4, 0x01 to 0x12). -/
inductive AluOp
  | add | sub | and | or | xor | shl | shr | sra | mul | cmpeq | cmplt | cmpltu
deriving DecidableEq, Repr

/-- The scalar slot (Tables 05-3 and 05-4). -/
inductive ScOp
  | nop
  | alu (op : AluOp) (gd ga gb : G)
  | addi (gd ga : G) (imm : BitVec 38)
  | movhi (gd ga : G) (imm : BitVec 26)
  | ld (gd ga : G) (imm : BitVec 38)
  | st (ga gb : G) (imm : BitVec 38)
  | br (imm : BitVec 38)
  | brnz (ga : G) (imm : BitVec 38)
  | brz (ga : G) (imm : BitVec 38)
  | loop (ga : G) (imm : BitVec 38)
  | brsum (ga : G) (sk : BitVec 2) (cond : Fin 9) (imm : BitVec 38)
  | done
  | rdsum (gd : G) (sk : BitVec 2) (word : BitVec 1)
  | wait (ga gb : G)
  | sig (ga gb : G)
  | waitt (ga : G)
  | ftime (gd : G)
  | seed (ga : G)
  | squash (ga : G)
  | extb (ga : G)
deriving DecidableEq, Repr

/-- FORM of mv.accst and mm.acc.ld. -/
inductive Form
  | fp32 | int32 | raw
deriving DecidableEq, Repr

/-- The move slot (Table 05-5). `pairs` is the field: row pairs − 1. -/
inductive MvOp
  | nop
  | go (m : BitVec 1) (ga : G)
  | accst (m : BitVec 1) (ga gb : G) (row : BitVec 10) (pairs : BitVec 9) (form : Form) (mode : BitVec 2)
deriving DecidableEq, Repr

/-- The ME classes (Table 03-1). -/
inductive Cls
  | fp8 | fp4 | mxi8 | i8 | bf16 | fp16
deriving DecidableEq, Repr

/-- The matrix slot (Table 05-6). `rows` is the field: rows − 1. -/
inductive MmOp
  | nop
  | ld (cls : Cls) (s : BitVec 1) (ga gb gc : G) (ty : BitVec 3) (scaling : BitVec 2)
  | stream (cls : Cls) (s : BitVec 1) (base rows : BitVec 10) (ga gb gc : G) (ty : BitVec 3) (scaling : BitVec 2)
      (ovr : BitVec 1)
  | zero (base rows : BitVec 10) (int : BitVec 1)
  | accld (base rows : BitVec 10) (ga : G) (form : Form)
deriving DecidableEq, Repr

/-- FP32 and BF16 arithmetic, integer and logic on two vector sources. -/
inductive BinOp
  | addF32 | subF32 | mulF32 | addBF16 | mulBF16 | addI32 | subI32 | shlI32 | shrI32 | and | or | xor
  | minF32 | maxF32
deriving DecidableEq, Repr

/-- Three-source arithmetic. -/
inductive TriOp
  | fmaF32 | fmsF32 | fmaBF16
deriving DecidableEq, Repr

inductive UnOp
  | absF32 | negF32 | mov
deriving DecidableEq, Repr

/-- Compare conditions (Table 05-8, cc). -/
inductive CmpC
  | eq | ne | lt | le | gt | ge
deriving DecidableEq, Repr

inductive PlOp
  | and | or | xor
deriving DecidableEq, Repr

/-- Segment widths of ve.ldb and of the reductions. -/
inductive Seg
  | w32 | w256 | w512
deriving DecidableEq, Repr

inductive RedOp
  | sum | max | amax
deriving DecidableEq, Repr

/-- Second source of a VE instruction: VB, or GS in its place (GSEL, R74). -/
inductive Src2
  | v (vb : VReg)
  | g (gs : G)
deriving DecidableEq, Repr

/-- Governing predicate and form (R71); `zero` is PF. -/
structure Pm where
  pm : PReg
  zero : BitVec 1
deriving DecidableEq, Repr

/-- The vector slot (Tables 05-7 and 05-8). -/
inductive VeOp
  | nop
  | ld (vd : VReg) (pm : Pm) (gs : G)
  | ldb (vd : VReg) (pm : Pm) (gs : G) (w : Seg)
  | st (va : VReg) (gs : G) (off len : BitVec 8)
  | accrd (vd : VReg) (pm : Pm) (mode : BitVec 2) (row : BitVec 10) (int : BitVec 1) (sf : Option (BitVec 2))
  | bin (op : BinOp) (vd va : VReg) (b : Src2) (pm : Pm)
  | tri (op : TriOp) (vd va : VReg) (b : Src2) (vc : VReg) (pm : Pm)
  | un (op : UnOp) (vd va : VReg) (pm : Pm)
  | cmpF (cc : CmpC) (pd : PReg) (va : VReg) (b : Src2) (pm : Pm)
  | cmpI (cc : CmpC) (pd : PReg) (va : VReg) (b : Src2) (pm : Pm)
  | sel (ps : PReg) (vd va : VReg) (b : Src2) (pm : Pm)
  | plog (op : PlOp) (pd pa pb : PReg)
  | pnot (pd pa : PReg)
  | cvt (vd va : VReg) (given : Option VReg) (pm : Pm) (gs : G) (mode : BitVec 2) (target source : Num.Ty)
      (scaling : BitVec 2) (half : BitVec 1)
  | scode (vd va : VReg) (pm : Pm) (ty : Num.Ty)
  | fn (der : Bool) (bf : Bool) (vd va : VReg) (pm : Pm) (mode : BitVec 2) (tbl : BitVec 3)
  | red (op : RedOp) (vd va : VReg) (pm : Pm) (w : Seg)
  | summ (sd : BitVec 2) (va : VReg) (pm pc : PReg) (mag merge : BitVec 1)
  | tld (t : BitVec 4) (gs : G)
deriving DecidableEq, Repr

/-- A bundle that passed the check of R94. -/
structure Bundle where
  sc : ScOp := .nop
  mv : MvOp := .nop
  mm : MmOp := .nop
  ve : VeOp := .nop
deriving DecidableEq, Repr

/-- Descriptor operations (Table 05-11). -/
inductive DOp
  | copy | gather | scatter | transpose | fill | accumulate
deriving DecidableEq, Repr

/-- A mover descriptor (Table 05-11). `n0`, `n1`, `n2` are the counts, one above the DIM fields. -/
structure Desc where
  op : DOp
  srcTy : Num.Ty
  dstTy : Num.Ty
  srcSc : Num.Scaling
  dstSc : Num.Scaling
  mode : Nat
  reblock : Bool
  auto : Bool
  hint : Nat
  srcRemote : Bool
  dstRemote : Bool
  class3 : Bool
  counter : Nat
  inc : Nat
  src : Nat
  srcId : Nat
  dst : Nat
  dstId : Nat
  n0 : Nat
  n1 : Nat
  n2 : Nat
  ss1 : Nat
  ss2 : Nat
  ds1 : Nat
  ds2 : Nat
  index : Nat
  srcScale : Nat
  srcT : Nat
  dstScale : Nat
  dstT : Nat
  mask : BitVec 64
  aux : Nat
  rcounter : Nat
  rinc : Nat
  rcEn : Bool
deriving DecidableEq, Repr

end Sys2Proof.Machine
end

