-- ==== Sys2Proof/Machine/CmdTypes.lean ====
section
/-! DEFINITION. What the commands carry: requesters, accesses of movers, packets to admit, frame slots, register
writes (assumption log 4). -/

namespace Sys2Proof.Machine

/-- A requester of a configuration access: UNIT code of Table 06-21 or Table 15-3, and its module when remote. -/
structure Who where
  unit : Nat
  remote : Bool := false
  srcId : Nat := 0
deriving DecidableEq, Repr

/-- A requester at the sync unit (R160, R162): UNIT code, own partition, module when remote, PROV bit. -/
structure SWho where
  unit : Nat
  part : Option Nat := none
  remote : Bool := false
  srcId : Nat := 0
  prov : Bool := false
  /-- EPOCH_LO of a provisional operation (Table 06-21) -/
  epochLo : Nat := 0
deriving DecidableEq, Repr

/-- Which bytes of a descriptor an access moves (R109): elements, scale array, index array, given destination
scales. -/
inductive MovePart
  | elems | scales | index | given
deriving DecidableEq, Repr

/-- An access by mover `m` of core `c` for its descriptor `seq`: plane, row, first element (or byte), count. -/
structure Move where
  what : MovePart
  c : Nat
  m : Nat
  seq : Nat
  k2 : Nat := 0
  k1 : Nat := 0
  k0 : Nat := 0
  n : Nat := 1
deriving DecidableEq, Repr

/-- A memory access: a request as it stands, or one that a mover makes. -/
inductive Access
  | plain (r : Req)
  | mover (x : Move) (ecc : Ecc) (evictBad : Option Nat)
deriving DecidableEq, Repr

/-- A packet that a unit of this module hands to the endpoint: as it stands, by a mover, or the next write of the
drain of partition `p`. -/
inductive Admit
  | plain (p : Pkt) (who : TxOrigin)
  | mover (x : Move)
deriving DecidableEq, Repr

/-- One lane of a received frame slot: codeword uncorrectable, symbols corrected, slots by which its marker is off the expected phase,
and the message: 640 data bytes, opened where the link is encrypted, and the lane control field (R222, R227). -/
structure LaneRx where
  lane : Nat
  bad : Bool := false
  corr : Nat := 0
  off : Nat := 0
  data : List Byte := []
  ctl : Nat := 0
deriving DecidableEq, Repr

/-- The control word of a frame slot (Table 09-3). `runs` are its runs as START and class × 2 + VC. -/
structure Ctl where
  runs : List (Nat × Nat) := []
  lost : Option Nat := none
  cr0 : Nat × Nat := (0, 0)
  cr1 : Nat × Nat := (0, 0)
  mig : Option Nat := none
  mapOp : Nat := 0
  mapLane : Nat := 0
  reqOp : Nat := 0
  reqIdx : Nat := 0
deriving DecidableEq, Repr

/-- A frame slot as received. `enc`: ENC_EN of the peer. `failed`: chunks whose group's authentication tag failed (R214). `resync`: units
still to come of packets whose beginning was lost, by class × 2 + VC (log entry 107). -/
structure Frame where
  slot : Nat
  lanes : List LaneRx
  enc : Bool := false
  failed : List Nat := []
  resync : List (Nat × Nat) := []
deriving DecidableEq, Repr

/-- A step of OPTICS_CALIBRATION (Table 09-8), with what the engine measures in it: power of the nine wavelengths as dBm × 256; BERT results
as (link, lane, receive, errors, bits). -/
inductive CalStep
  | laser (dbm : List Int)
  | tx
  | rx
  | loopback
  | bert
  | bertResult (r : List (Nat × Nat × Bool × Nat × Nat))
  | finish
deriving DecidableEq, Repr

/-- A lane that the peer asks to release; `sweep`: its receive ring is to be swept (R234, log entry 45). -/
structure LaneAsk where
  lane : Nat
  sweep : Bool := false
deriving DecidableEq, Repr

/-- Where a register write goes: configuration space, or BAR0 of a function. -/
inductive RegTarget
  | config (w : Who) (addr : Nat) (data : List Byte)
  | bar0 (fn off : Nat) (data : List Byte)
deriving DecidableEq, Repr

/-- A PCI Express configuration write (R296): VF Enable, or the size of a BAR2 window as a power above 1 GiB. -/
inductive CfgWrite
  | vfEnable (on : Bool)
  | bar2Size (fn pow : Nat)
deriving DecidableEq, Repr

/-- An SPDM request (R372). -/
inductive Spdm
  | certificate | challenge | measurements (signed : Bool) (index : Nat) | other
deriving DecidableEq, Repr

/-- The slot of KEY_SET (R373). -/
inductive KeySlot
  | linkTx (k : Nat) | linkRx (k : Nat) | management
deriving DecidableEq, Repr

end Sys2Proof.Machine
end

