-- ==== Sys2Proof/Syntax.lean ====
section
/-! DEFINITION. The commands: one constructor per row of the table of operations and events. Leading operands: `c` core,
`p` partition, `k` stream or link, `f` function, `m` mailbox or mover, `w` requester. -/

namespace Sys2Proof

open Sys2Proof.Machine

/-- A command to the block. -/
inductive Instr
  | bundleIssue (c : Nat)
  | scAdd (c : Nat) (gd ga gb : G)
  | scSub (c : Nat) (gd ga gb : G)
  | scAnd (c : Nat) (gd ga gb : G)
  | scOr (c : Nat) (gd ga gb : G)
  | scXor (c : Nat) (gd ga gb : G)
  | scShl (c : Nat) (gd ga gb : G)
  | scShr (c : Nat) (gd ga gb : G)
  | scSra (c : Nat) (gd ga gb : G)
  | scMul (c : Nat) (gd ga gb : G)
  | scAddi (c : Nat) (gd ga : G) (imm : BitVec 38)
  | scMovhi (c : Nat) (gd ga : G) (imm : BitVec 26)
  | scCmpeq (c : Nat) (gd ga gb : G)
  | scCmplt (c : Nat) (gd ga gb : G)
  | scCmpltu (c : Nat) (gd ga gb : G)
  | scLd (c : Nat) (gd ga : G) (imm : BitVec 38)
  | scSt (c : Nat) (ga gb : G) (imm : BitVec 38)
  | scBr (c : Nat) (imm : BitVec 38)
  | scBrnz (c : Nat) (ga : G) (imm : BitVec 38)
  | scBrz (c : Nat) (ga : G) (imm : BitVec 38)
  | scLoop (c : Nat) (ga : G) (imm : BitVec 38)
  | scBrsum (c : Nat) (ga : G) (sk : BitVec 2) (cond : Fin 9) (imm : BitVec 38)
  | scEnd (c : Nat)
  | scRdsum (c : Nat) (gd : G) (sk : BitVec 2) (word : BitVec 1)
  | scWait (c : Nat) (ga gb : G)
  | scSig (c : Nat) (ga gb : G)
  | scWaitt (c : Nat) (ga : G)
  | scFtime (c : Nat) (gd : G)
  | srSeed (c : Nat) (ga : G)
  | scSquash (c : Nat) (ga : G)
  | scExtb (c : Nat) (ga : G)
  | coreWake (c : Nat)
  | waitLimit (c : Nat)
  | launchStart (c : Nat)
  | lsTouch (c : Nat) (bad : List Nat)
  | mvGo (c : Nat) (m : BitVec 1) (ga : G)
  | mvAccst (c : Nat) (m : BitVec 1) (ga gb : G) (row : BitVec 10) (pairs : BitVec 9) (form : Form) (mode : BitVec 2)
  | mvAccstPairRead (c : Nat)
  | descriptorComplete (c m seq : Nat)
  | mmLd (c : Nat) (cls : Cls) (s : BitVec 1) (ga gb gc : G) (ty : BitVec 3) (scaling : BitVec 2)
  | stationaryReady (c : Nat)
  | mmStream (c : Nat) (cls : Cls) (s : BitVec 1) (base rows : BitVec 10) (ga gb gc : G) (ty : BitVec 3)
      (scaling : BitVec 2) (ovr : BitVec 1)
  | mmZero (c : Nat) (base rows : BitVec 10) (int : BitVec 1)
  | mmAccLd (c : Nat) (base rows : BitVec 10) (ga : G) (form : Form)
  | accRowWrite (c : Nat)
  | veLd (c : Nat) (vd : VReg) (pm : Pm) (gs : G)
  | veLdb (c : Nat) (vd : VReg) (pm : Pm) (gs : G) (w : Seg)
  | veSt (c : Nat) (va : VReg) (gs : G) (off len : BitVec 8)
  | veAccrd (c : Nat) (vd : VReg) (pm : Pm) (mode : BitVec 2) (row : BitVec 10) (int : BitVec 1)
      (sf : Option (BitVec 2))
  | veAddF32 (c : Nat) (vd va : VReg) (b : Src2) (pm : Pm)
  | veSubF32 (c : Nat) (vd va : VReg) (b : Src2) (pm : Pm)
  | veMulF32 (c : Nat) (vd va : VReg) (b : Src2) (pm : Pm)
  | veFmaF32 (c : Nat) (vd va : VReg) (b : Src2) (vc : VReg) (pm : Pm)
  | veFmsF32 (c : Nat) (vd va : VReg) (b : Src2) (vc : VReg) (pm : Pm)
  | veAddBf16 (c : Nat) (vd va : VReg) (b : Src2) (pm : Pm)
  | veMulBf16 (c : Nat) (vd va : VReg) (b : Src2) (pm : Pm)
  | veFmaBf16 (c : Nat) (vd va : VReg) (b : Src2) (vc : VReg) (pm : Pm)
  | veAddI32 (c : Nat) (vd va : VReg) (b : Src2) (pm : Pm)
  | veSubI32 (c : Nat) (vd va : VReg) (b : Src2) (pm : Pm)
  | veShlI32 (c : Nat) (vd va : VReg) (b : Src2) (pm : Pm)
  | veShrI32 (c : Nat) (vd va : VReg) (b : Src2) (pm : Pm)
  | veAnd (c : Nat) (vd va : VReg) (b : Src2) (pm : Pm)
  | veOr (c : Nat) (vd va : VReg) (b : Src2) (pm : Pm)
  | veXor (c : Nat) (vd va : VReg) (b : Src2) (pm : Pm)
  | veCmpF32 (c : Nat) (cc : CmpC) (pd : PReg) (va : VReg) (b : Src2) (pm : Pm)
  | veCmpI32 (c : Nat) (cc : CmpC) (pd : PReg) (va : VReg) (b : Src2) (pm : Pm)
  | veMinF32 (c : Nat) (vd va : VReg) (b : Src2) (pm : Pm)
  | veMaxF32 (c : Nat) (vd va : VReg) (b : Src2) (pm : Pm)
  | veAbsF32 (c : Nat) (vd va : VReg) (pm : Pm)
  | veNegF32 (c : Nat) (vd va : VReg) (pm : Pm)
  | veSel (c : Nat) (ps : PReg) (vd va : VReg) (b : Src2) (pm : Pm)
  | veMov (c : Nat) (vd va : VReg) (pm : Pm)
  | vePand (c : Nat) (pd pa pb : PReg)
  | vePor (c : Nat) (pd pa pb : PReg)
  | vePxor (c : Nat) (pd pa pb : PReg)
  | vePnot (c : Nat) (pd pa : PReg)
  | veCvt (c : Nat) (vd va : VReg) (given : Option VReg) (pm : Pm) (gs : G) (mode : BitVec 2) (target source : Num.Ty)
      (scaling : BitVec 2) (half : BitVec 1)
  | veScode (c : Nat) (vd va : VReg) (pm : Pm) (ty : Num.Ty)
  | veFnF32 (c : Nat) (vd va : VReg) (pm : Pm) (tbl : BitVec 3)
  | veFndF32 (c : Nat) (vd va : VReg) (pm : Pm) (tbl : BitVec 3)
  | veFnBf16 (c : Nat) (vd va : VReg) (pm : Pm) (mode : BitVec 2) (tbl : BitVec 3)
  | veFndBf16 (c : Nat) (vd va : VReg) (pm : Pm) (mode : BitVec 2) (tbl : BitVec 3)
  | veRsumF32 (c : Nat) (vd va : VReg) (pm : Pm) (w : Seg)
  | veRmaxF32 (c : Nat) (vd va : VReg) (pm : Pm) (w : Seg)
  | veRamaxF32 (c : Nat) (vd va : VReg) (pm : Pm) (w : Seg)
  | veSumm (c : Nat) (sd : BitVec 2) (va : VReg) (pm pc : PReg) (mag merge : BitVec 1)
  | veTld (c : Nat) (t : BitVec 4) (gs : G)
  | veResultLand (c : Nat)
  | summaryLand (c : Nat)
  | tableSwitch (c : Nat)
  | partitionHalt (p : Nat)
  | squashComplete (p : Nat)
  | applyPass (p : Nat) (bad : List Nat)
  | commitEvent (p : Nat)
  | memRead (a : Access)
  | memWrite (a : Access)
  | memAccumulate (a : Access)
  | heldRequestExpiry (target i : Nat)
  | panFlush (w : Who) (p : Nat)
  | panFlushDrop (w : Who) (p : Nat)
  | panFlushDone (p : Nat)
  | panSplitWrite (w : Who) (p s : Nat) (v : BitVec 32)
  | regionWrite (w : Who) (p i : Nat) (w0 w1 w2 w3 : Word)
  | mcThreshWrite (w : Who) (mc : Nat) (v : BitVec 32)
  | deviceTempRead (mc : Nat) (temp : Int) (refresh device : Nat)
  | scrubPass (mc corrected : Nat) (bad : List Nat) (done : Bool)
  | lpddr6ZeroDone (k : Nat)
  | counterRead (r : SWho) (i : Nat)
  | counterSet (r : SWho) (i : Nat) (v : Word)
  | counterAdd (r : SWho) (i : Nat) (v : Word)
  | watchArm (r : SWho) (slot : Nat) (w0 w1 w2 w3 : Word)
  | watchCancel (r : SWho) (slot : Nat) (w0 w1 w2 w3 : Word)
  | syncGroupWrite (w : Who) (g : Nat) (v : BitVec 32)
  | barrierWrite (w : Who) (p b : Nat) (v : Word)
  | watchSplitWrite (w : Who) (p : Nat) (v : BitVec 32)
  | ftCtrlWrite (w : Who) (v : BitVec 32)
  | ftTick
  | timeExchangeTimer
  | syncAdd (x : Pkt)
  | watchReq (x : Pkt)
  | timeReq (x : Pkt)
  | timeResp (x : Pkt)
  | packetRoute (port : Nat) (x : Pkt)
  | packetAdmit (a : Admit)
  | class0Release (k : Nat)
  | write (x : Pkt) (ecc : Ecc) (evictBad : Option Nat)
  | readReq (x : Pkt) (ecc : Ecc) (evictBad : Option Nat)
  | readResp (x : Pkt)
  | accumulate (x : Pkt) (ecc : Ecc) (evictBad : Option Nat)
  | collData (x : Pkt)
  | ack (x : Pkt)
  | nak (x : Pkt)
  | ackTimer (key : RxKey)
  | heldAckTimer (key : RxKey)
  | retxTimeout (key : TxKey)
  | txContextReclaim (key : TxKey)
  | rxContextReclaim (key : RxKey)
  | fabCtxReset (w : Who) (id : Nat) (all : Bool)
  | routeWrite (w : Who) (d : Nat) (v : BitVec 128)
  | mcastWrite (w : Who) (g : Nat) (v : BitVec 128)
  | frameSlotReceive (k : Nat) (x : Frame)
  | leave (k : Nat) (rx : Bool)
  | join (k : Nat) (rx : Bool)
  | swap (k : Nat) (rx : Bool)
  | migrate (k : Nat)
  | migrationConfirm (k slot : Nat)
  | migrationBreak (k : Nat)
  | migrationTimeout (k : Nat)
  | release (k : Nat) (x : LaneAsk)
  | resweepTx (k lane : Nat)
  | lockLoopTick (k lane : Nat) (rx : Bool) (heater : Nat) (tone : Option Nat)
  | fadeWindow (e : Nat) (rel : List (Nat × Nat × Int))
  | berWindow (k : Nat) (est : List (Nat × Nat × Nat))
  | resweepStart (k lane : Nat) (rx : Bool)
  | resweepEnd (k lane : Nat) (rx : Bool) (found : List (Nat × Option Nat))
  | gapRound (k : Nat)
  | calLoopbackTimer (k : Nat)
  | calReq (x : Pkt)
  | calAck (x : Pkt)
  | calLoopbackEnd (k : Nat)
  | discoveryDone (k peer link : Nat)
  | lnkAssignWrite (w : Who) (k : Nat) (v : Word)
  | linkSignalLoss (k : Nat)
  | opticsCalibration (e : Nat) (x : CalStep) (lit : List Nat) (found : List (Nat × Nat × Nat))
  | rxSweepRetry (k : Nat) (found : Option (List (Nat × Nat)))
  | collStart (p : Nat)
  | collDeadline (p entry inst : Nat)
  | collComplete (p entry inst : Nat)
  | planLoad (f m : Nat)
  | nop (p k : Nat)
  | launch (p k : Nat)
  | coll (p k : Nat)
  | wait (p k : Nat)
  | signal (p k : Nat)
  | commit (p k : Nat)
  | phaseBegin (p k : Nat)
  | phaseEnd (p k : Nat)
  | heavy (p k : Nat)
  | gap (p k : Nat)
  | memUse (p k : Nat)
  | streamRegionSet (p k : Nat)
  | streamWatchSet (p k : Nat)
  | drainCaptureDone (p : Nat)
  | drainWritten (p : Nat)
  | agreeResult (p : Nat) (v : BitVec 32)
  | fillLoad (p : Nat)
  | mailboxArm (f m seq : Nat)
  | mailboxDiscard (f m off : Nat)
  | hello (f m : Nat)
  | notifyWait (f m : Nat)
  | notifyTimeout (f m : Nat)
  | bar2Map (f m : Nat)
  | fwLoad (f m : Nat) (image : List Byte)
  | fwVerify
  | logRead (f m : Nat)
  | bankClear (f m : Nat)
  | resetCompute (f m : Nat)
  | resetFull (f m : Nat)
  | resetBlock (f m : Nat)
  | blockResetDone
  | setCap (f m : Nat)
  | partitionConfig (f m : Nat)
  | partitionBind (f m : Nat)
  | partitionReset (f m : Nat)
  | jobLoad (f m : Nat)
  | regionSet (f m : Nat)
  | watchSet (f m : Nat)
  | routeSet (f m : Nat)
  | mcastSet (f m : Nat)
  | fenceSet (f m : Nat)
  | fenceClear (f m : Nat)
  | ctxReset (f m : Nat)
  | laneAssign (f m : Nat)
  | submit (f m : Nat)
  | dmaCopyToDevice (f m : Nat) (data : List Byte) (fail : Bool)
  | dmaCopyToHost (f m : Nat) (fail : Option Nat)
  | snapConfig (f m : Nat)
  | snapSet (f m : Nat)
  | restore (f m : Nat)
  | fill (f m : Nat)
  | fillServe (f m : Nat)
  | fillCancel (f m : Nat)
  | resume (f m : Nat)
  | bar2Read (f off len : Nat)
  | bar2Write (f off : Nat) (data : List Byte)
  | functionLevelReset (f : Nat)
  | hotReset
  | pwrDomainReqWrite (w : Who) (v : Word)
  | domainPowered (d : Nat)
  | powerSample (watts volts : Nat)
  | ladderTick (input : Nat) (parts : List (Nat × Nat)) (streams : List (Nat × Nat × Nat))
  | dutyWindowStart
  | dutyHold
  | hintPreposition
  | thermalSample (temps : List Int)
  | thermCtrlWrite (w : Who) (v : BitVec 32)
  | coolantLoss
  | thermtrip
  | quenchRecovery
  | powerOn
  | inputUndervoltage
  | inputOvervoltage
  | perstN
  | resetRelease
  | dispatchWatchdog
  | dispatchRestart (digest : BitVec 512)
  | hearthWatchdog
  | hearthEcc
  | stageAdvance
  | startTimeout
  | failCountClear
  | svnAdvance
  | oobReset (arg : Word)
  | oobBankClear
  | oobSetCap (arg : Word)
  | oobStandby
  | oobWake
  | oobLogRead (first : Word) (count : Nat)
  | oobAlert (arg : Word)
  | oobDebugChallenge
  | pldmSensorRead (id : Nat)
  | pldmFwUpdate (image : List Byte)
  | spdmRequest (x : Spdm)
  | keySet (slot : KeySlot) (key : BitVec 256)
  | debugToken (token : List Byte)
  | remoteReset (x : Pkt)
  | voltageSample (rails : List Nat)
  | logProgram
  | bootRetainMirror
  | telemetryRefresh
  | alertCauseWrite (w : Who) (v : BitVec 32)
  | registerWrite (t : RegTarget)
  | frameSlotSend (k : Nat)
  | pageCapture (p : Nat)
  | migrationRetry (k : Nat)
  | loopbackRetry (k : Nat)
  | discoveryRetry (k : Nat)
  | configurationWrite (x : CfgWrite)
deriving DecidableEq, Repr

end Sys2Proof
end

