-- ==== Sys2Proof/Decode.lean ====
section
/-! DEFINITION. Commands as words: the table of operations and events gives no row a bit, so a word spells no command
(log entry 7). The words of the bundle slots are decoded in Machine/Bundle.lean. -/

namespace Sys2Proof

/-- The command that a word spells by the table's bits: none, as no row has bits. -/
def decodeTableWord (_nbits _w : Nat) : Option Instr := none

end Sys2Proof
end

