-- ==== Sys2Proof/Machine/Bundle.lean ====
section
/-! DEFINITION. The four slots of a bundle as words: encoding, decoding, the check of R94 (Tables 05-1 to 05-8).
A slot passes the check when it is the word of some instruction: every bit that an instruction does not use is 0 in
its word. -/

namespace Sys2Proof.Machine

open Sys2Proof.Num (Ty)

/-- `n` bits of a slot word from bit `l`. -/
def fld (w : BitVec 64) (l n : Nat) : BitVec n := w.extractLsb' l n

/-- The word of the scalar fields (Table 05-3). -/
def scWord (op : BitVec 8) (gd ga gb : BitVec 6) (imm : BitVec 38) : BitVec 64 := imm ++ gb ++ ga ++ gd ++ op

/-- Opcode of a three-register operation (Table 05-4). -/
def AluOp.code : AluOp → BitVec 8
  | .add => 0x01 | .sub => 0x02 | .and => 0x03 | .or => 0x04 | .xor => 0x05 | .shl => 0x06 | .shr => 0x07
  | .sra => 0x08 | .mul => 0x09 | .cmpeq => 0x10 | .cmplt => 0x11 | .cmpltu => 0x12

/-- The word of a scalar instruction. -/
def ScOp.encode : ScOp → BitVec 64
  | .nop => 0
  | .alu op gd ga gb => scWord op.code gd ga gb 0
  | .addi gd ga imm => scWord 0x0A gd ga 0 imm
  | .movhi gd ga imm => scWord 0x0B gd ga 0 (imm.setWidth 38)
  | .ld gd ga imm => scWord 0x18 gd ga 0 imm
  | .st ga gb imm => scWord 0x19 0 ga gb imm
  | .br imm => scWord 0x20 0 0 0 imm
  | .brnz ga imm => scWord 0x21 0 ga 0 imm
  | .brz ga imm => scWord 0x22 0 ga 0 imm
  | .loop ga imm => scWord 0x23 0 ga 0 imm
  | .brsum ga sk cond imm => scWord 0x24 0 ga (BitVec.ofNat 4 cond.val ++ sk) imm
  | .done => scWord 0x27 0 0 0 0
  | .rdsum gd sk word => scWord 0x28 gd 0 0 ((sk ++ word).setWidth 38)
  | .wait ga gb => scWord 0x30 0 ga gb 0
  | .sig ga gb => scWord 0x31 0 ga gb 0
  | .waitt ga => scWord 0x32 0 ga 0 0
  | .ftime gd => scWord 0x33 gd 0 0 0
  | .seed ga => scWord 0x38 0 ga 0 0
  | .squash ga => scWord 0x39 0 ga 0 0
  | .extb ga => scWord 0x3A 0 ga 0 0

/-- The scalar instruction that the opcode and the fields of a word name; none for a reserved opcode or condition. -/
def ScOp.fields (w : BitVec 64) : Option ScOp :=
  let gd := fld w 8 6
  let ga := fld w 14 6
  let gb := fld w 20 6
  let imm := fld w 26 38
  let alu (op : AluOp) : Option ScOp := some (.alu op gd ga gb)
  match (fld w 0 8).toNat with
  | 0x00 => some .nop
  | 0x01 => alu .add | 0x02 => alu .sub | 0x03 => alu .and | 0x04 => alu .or | 0x05 => alu .xor
  | 0x06 => alu .shl | 0x07 => alu .shr | 0x08 => alu .sra | 0x09 => alu .mul
  | 0x0A => some (.addi gd ga imm)
  | 0x0B => some (.movhi gd ga (fld w 26 26))
  | 0x10 => alu .cmpeq | 0x11 => alu .cmplt | 0x12 => alu .cmpltu
  | 0x18 => some (.ld gd ga imm)
  | 0x19 => some (.st ga gb imm)
  | 0x20 => some (.br imm)
  | 0x21 => some (.brnz ga imm)
  | 0x22 => some (.brz ga imm)
  | 0x23 => some (.loop ga imm)
  | 0x24 => let cond := (fld w 22 4).toNat
    if h : cond < 9 then some (.brsum ga (fld w 20 2) ⟨cond, h⟩ imm) else none
  | 0x27 => some .done
  | 0x28 => some (.rdsum gd (fld w 27 2) (fld w 26 1))
  | 0x30 => some (.wait ga gb)
  | 0x31 => some (.sig ga gb)
  | 0x32 => some (.waitt ga)
  | 0x33 => some (.ftime gd)
  | 0x38 => some (.seed ga)
  | 0x39 => some (.squash ga)
  | 0x3A => some (.extb ga)
  | _ => none

/-- The word of the move fields (Table 05-5). -/
def mvWord (op : BitVec 8) (m : BitVec 1) (ga gb : BitVec 6) (row : BitVec 10) (pairs : BitVec 9) (form mode : BitVec 2) :
    BitVec 64 :=
  (0 : BitVec 20) ++ mode ++ form ++ pairs ++ row ++ gb ++ ga ++ m ++ op

/-- FORM of Tables 05-5 and 05-6. -/
def Form.code : Form → BitVec 2
  | .fp32 => 0 | .int32 => 1 | .raw => 2

def Form.ofCode (n : BitVec 2) : Option Form :=
  match n.toNat with
  | 0 => some .fp32 | 1 => some .int32 | 2 => some .raw | _ => none

def MvOp.encode : MvOp → BitVec 64
  | .nop => 0
  | .go m ga => mvWord 0x01 m ga 0 0 0 0 0
  | .accst m ga gb row pairs form mode => mvWord 0x02 m ga gb row pairs form.code mode

def MvOp.fields (w : BitVec 64) : Option MvOp :=
  match (fld w 0 8).toNat with
  | 0x00 => some .nop
  | 0x01 => some (.go (fld w 8 1) (fld w 9 6))
  | 0x02 => (Form.ofCode (fld w 40 2)).map fun f =>
      .accst (fld w 8 1) (fld w 9 6) (fld w 15 6) (fld w 21 10) (fld w 31 9) f (fld w 42 2)
  | _ => none

/-- The word of the matrix fields (Table 05-6). -/
def mmWord (op : BitVec 8) (s : BitVec 1) (base rows : BitVec 10) (ga gb gc : BitVec 6) (ty : BitVec 3)
    (sc : BitVec 2) (mode : BitVec 1) (form : BitVec 2) : BitVec 64 :=
  (0 : BitVec 9) ++ form ++ mode ++ sc ++ ty ++ gc ++ gb ++ ga ++ rows ++ base ++ s ++ op

/-- Opcodes of mm.ld and of the stream, by class. -/
def Cls.ldCode : Cls → BitVec 8
  | .fp8 => 0x01 | .fp4 => 0x03 | .mxi8 => 0x05 | .i8 => 0x07 | .bf16 => 0x09 | .fp16 => 0x0B

def Cls.mmCode : Cls → BitVec 8
  | .fp8 => 0x02 | .fp4 => 0x04 | .mxi8 => 0x06 | .i8 => 0x08 | .bf16 => 0x0A | .fp16 => 0x0C

/-- Table 03-3: type code 7 is defined in mm.bf16 and mm.fp16 only (R94; log entry 30). -/
def Cls.codeOk (c : Cls) (ty : BitVec 3) : Bool := ty != 7 || c == .bf16 || c == .fp16

def MmOp.encode : MmOp → BitVec 64
  | .nop => 0
  | .ld cls s ga gb gc ty sc => mmWord cls.ldCode s 0 0 ga gb gc ty sc 0 0
  | .stream cls s base rows ga gb gc ty sc ovr => mmWord cls.mmCode s base rows ga gb gc ty sc ovr 0
  | .zero base rows int => mmWord 0x10 0 base rows 0 0 0 0 0 int 0
  | .accld base rows ga form => mmWord 0x11 0 base rows ga 0 0 0 0 0 form.code

def MmOp.fields (w : BitVec 64) : Option MmOp :=
  let s := fld w 8 1
  let base := fld w 9 10
  let rows := fld w 19 10
  let ga := fld w 29 6
  let gb := fld w 35 6
  let gc := fld w 41 6
  let ty := fld w 47 3
  let sc := fld w 50 2
  let ld (c : Cls) : Option MmOp := if c.codeOk ty then some (.ld c s ga gb gc ty sc) else none
  let st (c : Cls) : Option MmOp := if c.codeOk ty then some (.stream c s base rows ga gb gc ty sc (fld w 52 1)) else none
  match (fld w 0 8).toNat with
  | 0x00 => some .nop
  | 0x01 => ld .fp8 | 0x02 => st .fp8 | 0x03 => ld .fp4 | 0x04 => st .fp4 | 0x05 => ld .mxi8 | 0x06 => st .mxi8
  | 0x07 => ld .i8 | 0x08 => st .i8 | 0x09 => ld .bf16 | 0x0A => st .bf16 | 0x0B => ld .fp16 | 0x0C => st .fp16
  | 0x10 => some (.zero base rows (fld w 52 1))
  | 0x11 => (Form.ofCode (fld w 53 2)).map fun f => .accld base rows ga f
  | _ => none

/-- The word of the vector fields (Table 05-7). -/
def veWord (op : BitVec 8) (vd va vb vc : BitVec 5) (pm : BitVec 3) (pf : BitVec 1) (gs : BitVec 6) (gsel : BitVec 1)
    (mode : BitVec 2) (mod : BitVec 23) : BitVec 64 :=
  mod ++ mode ++ gsel ++ gs ++ pf ++ pm ++ vc ++ vb ++ va ++ vd ++ op

def Seg.code : Seg → BitVec 2
  | .w32 => 0 | .w256 => 1 | .w512 => 2

def Seg.ofCode (n : BitVec 2) : Option Seg :=
  match n.toNat with
  | 0 => some .w32 | 1 => some .w256 | 2 => some .w512 | _ => none

def BinOp.code : BinOp → BitVec 8
  | .addF32 => 0x08 | .subF32 => 0x09 | .mulF32 => 0x0A | .addBF16 => 0x0D | .mulBF16 => 0x0E | .addI32 => 0x10
  | .subI32 => 0x11 | .shlI32 => 0x12 | .shrI32 => 0x13 | .and => 0x14 | .or => 0x15 | .xor => 0x16 | .minF32 => 0x1A
  | .maxF32 => 0x1B

def TriOp.code : TriOp → BitVec 8
  | .fmaF32 => 0x0B | .fmsF32 => 0x0C | .fmaBF16 => 0x0F

def UnOp.code : UnOp → BitVec 8
  | .absF32 => 0x1C | .negF32 => 0x1D | .mov => 0x1F

def CmpC.code : CmpC → BitVec 3
  | .eq => 0 | .ne => 1 | .lt => 2 | .le => 3 | .gt => 4 | .ge => 5

def CmpC.ofCode (n : BitVec 3) : Option CmpC :=
  match n.toNat with
  | 0 => some .eq | 1 => some .ne | 2 => some .lt | 3 => some .le | 4 => some .gt | 5 => some .ge | _ => none

def PlOp.code : PlOp → BitVec 8
  | .and => 0x20 | .or => 0x21 | .xor => 0x22

def RedOp.code : RedOp → BitVec 8
  | .sum => 0x38 | .max => 0x39 | .amax => 0x3A

/-- VB, GS and GSEL of a second source (R74). -/
def Src2.vb : Src2 → BitVec 5
  | .v r => r
  | .g _ => 0
def Src2.gr : Src2 → BitVec 6
  | .v _ => 0
  | .g r => r
def Src2.sel : Src2 → BitVec 1
  | .v _ => 0
  | .g _ => 1

/-- SF of ve.accrd: 0 to 3, or 7 for none (R76). -/
def sfCode : Option (BitVec 2) → BitVec 3
  | some s => s.setWidth 3
  | none => 7

def sfOf (n : BitVec 3) : Option (Option (BitVec 2)) :=
  if n.toNat < 4 then some (some (n.setWidth 2)) else if n = 7 then some none else none

/-- Types by their 4-bit code. -/
def tyBits (t : Ty) : BitVec 4 := BitVec.ofNat 4 t.code

def VeOp.encode : VeOp → BitVec 64
  | .nop => 0
  | .ld vd pm gs => veWord 0x01 vd 0 0 0 pm.pm pm.zero gs 0 0 0
  | .ldb vd pm gs w => veWord 0x02 vd 0 0 0 pm.pm pm.zero gs 0 0 (w.code.setWidth 23)
  | .st va gs off len => veWord 0x03 0 va 0 0 0 0 gs 0 0 ((len ++ off).setWidth 23)
  | .accrd vd pm mode row int sf =>
    veWord 0x04 vd 0 0 0 pm.pm pm.zero 0 0 mode ((sfCode sf ++ int ++ row).setWidth 23)
  | .bin op vd va b pm => veWord op.code vd va b.vb 0 pm.pm pm.zero b.gr b.sel 0 0
  | .tri op vd va b vc pm => veWord op.code vd va b.vb vc pm.pm pm.zero b.gr b.sel 0 0
  | .un op vd va pm => veWord op.code vd va 0 0 pm.pm pm.zero 0 0 0 0
  | .cmpF cc pd va b pm => veWord 0x18 (pd.setWidth 5) va b.vb 0 pm.pm pm.zero b.gr b.sel 0 (cc.code.setWidth 23)
  | .cmpI cc pd va b pm => veWord 0x19 (pd.setWidth 5) va b.vb 0 pm.pm pm.zero b.gr b.sel 0 (cc.code.setWidth 23)
  | .sel ps vd va b pm => veWord 0x1E vd va b.vb 0 pm.pm pm.zero b.gr b.sel 0 (ps.setWidth 23)
  | .plog op pd pa pb => veWord op.code (pd.setWidth 5) (pa.setWidth 5) (pb.setWidth 5) 0 0 0 0 0 0 0
  | .pnot pd pa => veWord 0x23 (pd.setWidth 5) (pa.setWidth 5) 0 0 0 0 0 0 0 0
  | .cvt vd va given pm gs mode target source sc half =>
    veWord 0x28 vd va (given.getD 0) 0 pm.pm pm.zero gs 0 mode
      ((half ++ (if given.isSome then 1 else 0 : BitVec 1) ++ sc ++ tyBits source ++ tyBits target).setWidth 23)
  | .scode vd va pm ty => veWord 0x29 vd va 0 0 pm.pm pm.zero 0 0 0 ((tyBits ty).setWidth 23)
  | .fn der bf vd va pm mode tbl =>
    veWord (if bf then (if der then 0x33 else 0x32) else (if der then 0x31 else 0x30)) vd va 0 0 pm.pm pm.zero 0 0
      (if bf then mode else 0) (tbl.setWidth 23)
  | .red op vd va pm w => veWord op.code vd va 0 0 pm.pm pm.zero 0 0 0 (w.code.setWidth 23)
  | .summ sd va pm pc mag merge => veWord 0x3B 0 va 0 0 pm 0 0 0 0 ((pc ++ merge ++ mag ++ sd).setWidth 23)
  | .tld t gs => veWord 0x3F 0 0 0 0 0 0 gs 0 0 (t.setWidth 23)

def VeOp.fields (w : BitVec 64) : Option VeOp :=
  let vd := fld w 8 5
  let va := fld w 13 5
  let vb := fld w 18 5
  let vc := fld w 23 5
  let pm : Pm := { pm := fld w 28 3, zero := fld w 31 1 }
  let gs := fld w 32 6
  let b : Src2 := if fld w 38 1 = 1 then .g gs else .v vb
  let mode := fld w 39 2
  let bin (op : BinOp) : Option VeOp := some (.bin op vd va b pm)
  let tri (op : TriOp) : Option VeOp := some (.tri op vd va b vc pm)
  let un (op : UnOp) : Option VeOp := some (.un op vd va pm)
  let plog (op : PlOp) : Option VeOp := some (.plog op (fld w 8 3) (fld w 13 3) (fld w 18 3))
  let fn (der bf : Bool) : Option VeOp := some (.fn der bf vd va pm (if bf then mode else 0) (fld w 41 3))
  let red (op : RedOp) : Option VeOp := (Seg.ofCode (fld w 41 2)).map fun x => .red op vd va pm x
  match (fld w 0 8).toNat with
  | 0x00 => some .nop
  | 0x01 => some (.ld vd pm gs)
  | 0x02 => (Seg.ofCode (fld w 41 2)).map fun x => .ldb vd pm gs x
  | 0x03 => some (.st va gs (fld w 41 8) (fld w 49 8))
  | 0x04 => (sfOf (fld w 52 3)).map fun sf => .accrd vd pm mode (fld w 41 10) (fld w 51 1) sf
  | 0x08 => bin .addF32 | 0x09 => bin .subF32 | 0x0A => bin .mulF32 | 0x0B => tri .fmaF32 | 0x0C => tri .fmsF32
  | 0x0D => bin .addBF16 | 0x0E => bin .mulBF16 | 0x0F => tri .fmaBF16
  | 0x10 => bin .addI32 | 0x11 => bin .subI32 | 0x12 => bin .shlI32 | 0x13 => bin .shrI32 | 0x14 => bin .and
  | 0x15 => bin .or | 0x16 => bin .xor
  | 0x18 => (CmpC.ofCode (fld w 41 3)).map fun cc => .cmpF cc (fld w 8 3) va b pm
  | 0x19 => (CmpC.ofCode (fld w 41 3)).map fun cc => .cmpI cc (fld w 8 3) va b pm
  | 0x1A => bin .minF32 | 0x1B => bin .maxF32 | 0x1C => un .absF32 | 0x1D => un .negF32
  | 0x1E => some (.sel (fld w 41 3) vd va b pm)
  | 0x1F => un .mov
  | 0x20 => plog .and | 0x21 => plog .or | 0x22 => plog .xor
  | 0x23 => some (.pnot (fld w 8 3) (fld w 13 3))
  | 0x28 =>
    match Ty.ofCode (fld w 41 4).toNat, Ty.ofCode (fld w 45 4).toNat with
    | some t, some s =>
      some (.cvt vd va (if fld w 51 1 = 1 then some vb else none) pm gs mode t s (fld w 49 2) (fld w 52 1))
    | _, _ => none
  | 0x29 => (Ty.ofCode (fld w 41 4).toNat).map fun t => .scode vd va pm t
  | 0x30 => fn false false | 0x31 => fn true false | 0x32 => fn false true | 0x33 => fn true true
  | 0x38 => red .sum | 0x39 => red .max | 0x3A => red .amax
  | 0x3B => some (.summ (fld w 41 2) va (fld w 28 3) (fld w 45 3) (fld w 43 1) (fld w 44 1))
  | 0x3F => some (.tld (fld w 41 4) gs)
  | _ => none

/-- A type whose elements fill half a register (R78). -/
def halfTy (t : Ty) : Bool := t == .bf16 || t == .fp16

/-- Instructions that their word can say: a type code of the class, CVT_MODE 0 where the instruction does not use it, and HALF 0
in a ve.cvt that has no side of 16 bits (R78, R94; log entry 72). -/
def MmOp.wf : MmOp → Bool
  | .ld cls _ _ _ _ ty _ => cls.codeOk ty
  | .stream cls _ _ _ _ _ _ ty _ _ => cls.codeOk ty
  | _ => true

def VeOp.wf : VeOp → Bool
  | .fn _ bf _ _ _ mode _ => bf || mode == 0
  | .cvt _ _ _ _ _ _ target source _ half => half == 0 || halfTy target || halfTy source
  | _ => true

/-- R94: the instruction of a slot word, where the word passes the check. -/
def ScOp.decode (w : BitVec 64) : Option ScOp := (ScOp.fields w).filter fun x => x.encode == w
def MvOp.decode (w : BitVec 64) : Option MvOp := (MvOp.fields w).filter fun x => x.encode == w
def MmOp.decode (w : BitVec 64) : Option MmOp := (MmOp.fields w).filter fun x => x.encode == w
def VeOp.decode (w : BitVec 64) : Option VeOp := (VeOp.fields w).filter fun x => x.encode == w && x.wf

/-- Table 05-1: a bundle of four slot words. -/
def Bundle.encode (b : Bundle) : BitVec 256 := b.ve.encode ++ b.mm.encode ++ b.mv.encode ++ b.sc.encode

/-- R94: the instructions of a bundle; none where a slot fails the check. -/
def Bundle.decode (w : BitVec 256) : Option Bundle :=
  match ScOp.decode (w.extractLsb' 0 64), MvOp.decode (w.extractLsb' 64 64), MmOp.decode (w.extractLsb' 128 64),
      VeOp.decode (w.extractLsb' 192 64) with
  | some a, some b, some c, some d => some { sc := a, mv := b, mm := c, ve := d }
  | _, _, _, _ => none

end Sys2Proof.Machine
end

