-- ==== Sys2Proof/Machine/Codes.lean ====
section
/-! DEFINITION. The error codes by name: Tables 03-16, 04-16, 05-13, 06-25, 07-23. Later chapters' codes stand
in the file of their family. -/

namespace Sys2Proof.Machine.Err

def poisonedME : Code := 0x0106
def bankConflict : Code := 0x0301
def bankReserved : Code := 0x0302
def portBusy : Code := 0x0303
def writeOrder : Code := 0x0304
def delaySlot : Code := 0x0305
def badEncoding : Code := 0x0306
def malformedDescriptor : Code := 0x0307
def queueFull : Code := 0x0308
def branchRange : Code := 0x0309
def squashEpoch : Code := 0x030A
def lsRange : Code := 0x030B
def waitLimit : Code := 0x030C
def poisonedReg : Code := 0x030D
def maskBreach : Code := 0x030E
def extBank : Code := 0x030F
def blockOverrun : Code := 0x0310

def noRegion : Code := 0x0401
def permission : Code := 0x0402
def epochGuard : Code := 0x0403
def epochStale : Code := 0x0404
def adderType : Code := 0x0405
def deferFull : Code := 0x0406
def uncorrectable : Code := 0x0407
def tierOffline : Code := 0x0408
def regionLoad : Code := 0x0409

def syncAlign : Code := 0x0501
def counterOwner : Code := 0x0502
def counterRemote : Code := 0x0503
def counterEpoch : Code := 0x0504
def watchOwner : Code := 0x0505
def watchFull : Code := 0x0506
def watchForm : Code := 0x0507
def barrierOverrun : Code := 0x0508
def barrierStale : Code := 0x0509
def barrierExcess : Code := 0x050A
def barrierForm : Code := 0x050B
def syncForm : Code := 0x050C

end Sys2Proof.Machine.Err
end

