-- ==== Sys2Proof/Machine/Flags.lean ====
section
/-! DEFINITION. The conversion flags and every rounding rule (R26 to R39, R59, R393). -/

namespace Sys2Proof.Num

/-- The five CVT_FLAGS of Table 02-8. -/
structure Cvt where
  ovf : Bool := false
  unf : Bool := false
  nanin : Bool := false
  esat : Bool := false
  nanscale : Bool := false
deriving DecidableEq, Repr

/-- No flag. -/
def Cvt.none : Cvt := {}

/-- Sticky union of flags (R39). -/
def Cvt.or (a b : Cvt) : Cvt :=
  { ovf := a.ovf || b.ovf, unf := a.unf || b.unf, nanin := a.nanin || b.nanin, esat := a.esat || b.esat,
    nanscale := a.nanscale || b.nanscale }

/-- Bits [4:0] of a status register. -/
def Cvt.bits (a : Cvt) : Nat :=
  a.ovf.toNat + 2 * a.unf.toNat + 4 * a.nanin.toNat + 8 * a.esat.toNat + 16 * a.nanscale.toNat

/-- W1C: a written 1 clears its flag (R5, R39). -/
def Cvt.w1c (a : Cvt) (w : Nat) : Cvt :=
  { ovf := a.ovf && !w.testBit 0, unf := a.unf && !w.testBit 1, nanin := a.nanin && !w.testBit 2,
    esat := a.esat && !w.testBit 3, nanscale := a.nanscale && !w.testBit 4 }

/-- The CVT_MODE field (Table 02-5). -/
structure Mode where
  sr : Bool
  nsat : Bool
deriving DecidableEq, Repr

def Mode.ofCode (n : Nat) : Mode := { sr := n.testBit 0, nsat := n.testBit 1 }

/-- Round to nearest even, non-saturating: the mode of arithmetic, the rake and the adders (R30, R74). -/
def Mode.ieee : Mode := { sr := false, nsat := true }

/-- The integer and fraction step of R32 on `m · 2^e` in units of `2^k`: the rounded count of units and
whether a non-zero fraction was lost. -/
def roundUnits (sr : Bool) (draw m : Nat) (e k : Int) : Nat × Bool :=
  if k ≤ e then (m * 2 ^ (e - k).toNat, false)
  else
    let d := 2 ^ (k - e).toNat
    let i := m / d
    let rem := m % d
    let up : Bool :=
      if sr then decide (2 ^ 16 ≤ rem * 2 ^ 16 / d + draw)
      else decide (d < 2 * rem) || (decide (2 * rem = d) && decide (i % 2 = 1))
    (i + up.toNat, decide (rem ≠ 0))

/-- The smallest normal exponent of a format. -/
def Fmt.emin (f : Fmt) : Int := 1 - (f.bias : Int)

/-- R32 for a floating-point target: the magnitude code before the overflow test, and inexactness. -/
def Fmt.roundMag (f : Fmt) (sr : Bool) (draw m : Nat) (e : Int) : Nat × Bool :=
  let b := max (ilog2 m e) f.emin
  let r := roundUnits sr draw m e (b - f.p)
  (((b + f.bias - 1).toNat) * 2 ^ f.p + r.1, r.2)

/-- The sign bit of a format put on a magnitude code. -/
def Fmt.withSign (f : Fmt) (neg : Bool) (mag : Nat) : Nat :=
  if neg then mag + 2 ^ (f.eb + f.p) else mag

/-- R33, Table 02-7: the code of an overflowed result. -/
def Fmt.overflow (f : Fmt) (nsat neg : Bool) : Nat :=
  if nsat then
    match f.infCode, f.nanCode with
    | some i, _ => f.withSign neg i
    | none, some n => n
    | none, none => f.withSign neg f.maxCode
  else f.withSign neg f.maxCode

/-- R32 to R37 for an unscaled or per-tensor-scaled floating-point target. -/
def Fmt.convert (f : Fmt) (md : Mode) (draw : Nat) (v : Val) : Nat × Cvt :=
  match v with
  | .nan => (f.nanCode.getD 0, { nanin := true })
  | .inf s =>
    if md.nsat && f.infCode.isSome then (f.overflow true s, {})
    else (f.overflow md.nsat s, { ovf := true })
  | .fin s m e =>
    if m = 0 then (f.withSign s 0, {})
    else
      let r := f.roundMag md.sr draw m e
      if f.maxCode < r.1 then (f.overflow md.nsat s, { ovf := true })
      else (f.withSign s r.1, { unf := r.2 && decide (ilog2 m e < f.emin) })

/-- R32, R33, R35, R37 for an integer target of width `w` in units of `2^u`. -/
def convertInt (w : Nat) (u : Int) (md : Mode) (draw : Nat) (v : Val) : Nat × Cvt :=
  let hi := 2 ^ (w - 1) - 1
  match v with
  | .nan => (0, { nanin := true })
  | .inf s => (if s then 2 ^ (w - 1) else hi, { ovf := true })
  | .fin s m e =>
    let r := (roundUnits md.sr draw m e u).1
    if s then (if 2 ^ (w - 1) < r then (2 ^ (w - 1), { ovf := true }) else (wrap w (-(r : Int)), {}))
    else if hi < r then (hi, { ovf := true })
    else (r, {})

/-- A conversion into an unscaled or per-tensor-scaled target (R32 to R38). -/
def convert (t : Ty) (md : Mode) (draw : Nat) (v : Val) : Nat × Cvt :=
  match t.fmt with
  | some f => f.convert md draw v
  | none =>
    match t with
    | .mxint8 => convertInt 8 (-6) md draw v
    | .int8 => convertInt 8 0 md draw v
    | .int32 => convertInt 32 0 md draw v
    | .int64 => convertInt 64 0 md draw v
    | _ => convertInt 8 0 md draw v

/-- The largest finite code of a sign: the element of R28 and R393 that does not fit. -/
def maxCodeOf (t : Ty) (neg : Bool) : Nat :=
  match t.fmt with
  | some f => f.withSign neg f.maxCode
  | none => if neg then 0x80 else 0x7F

/-- R28: a quotient rounded into a block-scaled or tile-scaled element. -/
def convertElem (t : Ty) (md : Mode) (draw : Nat) (v : Val) : Nat × Cvt :=
  match v with
  | .nan => (0, { nanin := true })
  | .inf s => (maxCodeOf t s, { ovf := true })
  | .fin s m e =>
    let r := convert t { md with nsat := false } draw (.fin s m e)
    if r.2.ovf then (maxCodeOf t s, { esat := true }) else r

/-- R393: an element under a given scale code `c`; `blocky` when the scale is of a block or tile. -/
def convertGiven (t : Ty) (blocky : Bool) (c : Nat) (md : Mode) (draw : Nat) (v : Val) : Nat × Cvt :=
  if c = 0xFF then (0, { nanscale := true })
  else
    let q := v.scale (127 - (c : Int))
    if blocky then convertElem t md draw q else convert t md draw q

/-- emax of Table 02-4. -/
def Ty.emax : Ty → Int
  | .e4m3 => 8 | .e5m2 => 15 | .e2m3 => 2 | .e3m2 => 4 | .e2m1 => 2 | _ => 0

/-- R26: the scale code for the largest magnitude `amax` of a block; R27: 0xFF when it is not finite. -/
def scaleCode (t : Ty) (amax : Val) : Nat :=
  match amax with
  | .nan => 0xFF
  | .inf _ => 0xFF
  | .fin _ m e => if m = 0 then 0 else (max (ilog2 m e - t.emax) (-127) + 127).toNat

/-- The larger magnitude; NaN or an infinity wins, so that R27 sees it. -/
def amax2 (a b : Val) : Val :=
  if a.isNan || b.isNan then .nan
  else if (a.abs).lt b.abs then b.abs else a.abs

/-- The largest magnitude of a block (R26). -/
def amaxOf (vs : List Val) : Val := vs.foldl amax2 (.fin false 0 0)

/-- A block converted with the scale that R26 and R27 choose: scale code, element codes, flags.
Draws come with the elements. -/
def convertBlockAuto (t : Ty) (md : Mode) (vs : List (Val × Nat)) : Nat × List Nat × Cvt :=
  let c := scaleCode t (amaxOf (vs.map (·.1)))
  let rs := vs.map fun x => convertGiven t true c md x.2 x.1
  (c, rs.map (·.1), rs.foldl (fun f r => f.or r.2) {})

/-- A block converted under a given scale code (R393). -/
def convertBlockGiven (t : Ty) (c : Nat) (md : Mode) (vs : List (Val × Nat)) : List Nat × Cvt :=
  let rs := vs.map fun x => convertGiven t true c md x.2 x.1
  (rs.map (·.1), rs.foldl (fun f r => f.or r.2) {})

/-- R59: an exact value rounded to the extended accumulator format; the flag is RANGE. -/
def roundExt (v : Val) : Nat × Bool :=
  match v with
  | .nan => (0x7FF000000, false)
  | .inf s => (fmtExt.withSign s 0x7FE000000, false)
  | .fin s m e =>
    if m = 0 then (0, false)
    else
      let r := fmtExt.roundMag false 0 m e
      if fmtExt.maxCode < r.1 then (fmtExt.withSign s fmtExt.maxCode, true)
      else (fmtExt.withSign s r.1, false)

/-- R57 step 5: as `roundExt`, but an exact tie resolves toward the infinity whose sign is `neg`. -/
def roundExtSticky (v : Val) (neg : Bool) : Nat × Bool :=
  match v with
  | .fin s m e =>
    if m = 0 then (0, false)
    else
      let b := max (ilog2 m e) fmtExt.emin
      let k := b - 25
      if k ≤ e then roundExt v
      else
        let d := 2 ^ (k - e).toNat
        if 2 * (m % d) = d then
          -- the tie: away from zero when the sum has the sign of T, else toward zero
          let i := m / d + (if s = neg then 1 else 0)
          let mag := ((b + 511 - 1).toNat) * 2 ^ 25 + i
          if fmtExt.maxCode < mag then (fmtExt.withSign s fmtExt.maxCode, true)
          else (fmtExt.withSign s mag, false)
        else roundExt v
  | w => roundExt w

/-- Table 02-6: the direct conversions between element types. -/
def directOk (src dst : Ty) : Bool :=
  match src, dst with
  | .fp32, .bf16 | .fp32, .fp16 | .fp32, .e4m3 | .fp32, .e5m2 | .fp32, .e2m3 | .fp32, .e3m2
  | .fp32, .e2m1 | .fp32, .mxint8 | .fp32, .int8 | .fp32, .int32 => true
  | .bf16, .fp32 | .fp16, .fp32 | .bf16, .fp16 | .fp16, .bf16 | .bf16, .bf16 | .fp16, .fp16 => true
  | .bf16, .e4m3 | .bf16, .e5m2 | .bf16, .e2m3 | .bf16, .e3m2 | .bf16, .e2m1 | .bf16, .mxint8 => true
  | .fp16, .e4m3 | .fp16, .e5m2 | .fp16, .e2m3 | .fp16, .e3m2 | .fp16, .e2m1 | .fp16, .mxint8 => true
  | .e4m3, .fp32 | .e5m2, .fp32 | .e4m3, .bf16 | .e5m2, .bf16 | .e4m3, .fp16 | .e5m2, .fp16 => true
  | .e2m3, .fp32 | .e3m2, .fp32 | .e2m1, .fp32 | .mxint8, .fp32 => true
  | .e2m3, .bf16 | .e3m2, .bf16 | .e2m1, .bf16 | .mxint8, .bf16 => true
  | .e2m3, .fp16 | .e3m2, .fp16 | .e2m1, .fp16 | .mxint8, .fp16 => true
  | .int8, .fp32 | .int8, .int32 | .int32, .fp32 | .int64, .fp32 => true
  | _, _ => false

/-- The value of an FP32 code. -/
def f32 (n : Nat) : Val := fmtFP32.decode n

/-- The value of a BF16 code. -/
def bf (n : Nat) : Val := fmtBF16.decode n

/-- An exact result rounded to FP32 as IEEE 754 arithmetic rounds (R74). -/
def toF32 (v : Val) : Nat := (fmtFP32.convert Mode.ieee 0 v).1

/-- An exact result rounded to BF16 as IEEE 754 arithmetic rounds (R74). -/
def toBF (v : Val) : Nat := (fmtBF16.convert Mode.ieee 0 v).1

/-- FP32 addition, ties to even. -/
def addF32 (a b : Nat) : Nat := toF32 ((f32 a).add (f32 b))

/-- FP32 product. -/
def mulF32 (a b : Nat) : Nat := toF32 ((f32 a).mul (f32 b))

/-- FP32 fused multiply-add: one rounding. -/
def fmaF32 (a b c : Nat) : Nat := toF32 (((f32 a).mul (f32 b)).add (f32 c))

/-- Larger of two FP32 codes: NaN if either is NaN, −0 below +0 (R74, Table 06-8). -/
def maxF32 (a b : Nat) : Nat :=
  if (f32 a).isNan || (f32 b).isNan then 0x7FC00000
  else if (f32 a).ltz (f32 b) then b else a

/-- Smaller of two FP32 codes. -/
def minF32 (a b : Nat) : Nat :=
  if (f32 a).isNan || (f32 b).isNan then 0x7FC00000
  else if (f32 b).ltz (f32 a) then b else a

/-- Larger magnitude of two FP32 codes, its sign cleared (R75). -/
def maxMagF32 (a b : Nat) : Nat :=
  if (f32 a).isNan || (f32 b).isNan then 0x7FC00000
  else max (a % 2 ^ 31) (b % 2 ^ 31)

/-- mix64 of R40. -/
def mix64 (x : Nat) : Nat :=
  let w := 2 ^ 64
  let a := ((x ^^^ (x >>> 30)) * 0xBF58476D1CE4E5B9) % w
  let b := ((a ^^^ (a >>> 27)) * 0x94D049BB133111EB) % w
  b ^^^ (b >>> 31)

/-- The key of a converting unit (R40). -/
def drawKey (jobSeed step logicalId core engine : Nat) : Nat :=
  let unit := (logicalId <<< 16) ||| (core <<< 4) ||| engine
  mix64 (mix64 (jobSeed ^^^ step) ^^^ unit)

/-- The draw r(n, l) of R40. -/
def drawOf (key n l : Nat) : Nat := mix64 (key ^^^ ((n <<< 16) % 2 ^ 64) ^^^ l) >>> 48

end Sys2Proof.Num
end

