-- ==== Sys2Proof/Machine/CoreState.lean ====
section
/-! DEFINITION. The state of a core: control core, matrix engine, vector engine, two movers
(chapters 03, 04 and 05). -/

namespace Sys2Proof.Machine

open Sys2Proof.Num (Ty Scaling Cvt)

/-- CC_STATUS.STATE (Table 05-15). -/
inductive Run
  | idle | issuing | held | halted
deriving DecidableEq, Repr

/-- A launch, queued or running (R101, R102). -/
structure Launch where
  half : Nat
  arg : Word
  tag : Word
  addr : Nat
  bundles : Nat
  stream : Nat
  copied : Bool
deriving DecidableEq, Repr

/-- A branch or sc.end whose delay bundles are still to issue (R98). `target` is none for sc.end. -/
structure BrPend where
  left : Nat
  target : Option Nat
deriving DecidableEq, Repr

/-- A core waits for its watch (R112): the clock at which the hold began, the address of the bundle that asked, and for whom. -/
structure Waiting where
  since : Nat
  bundle : Nat := 0
  prov : Option Word := none
  stream : Nat := 64
deriving DecidableEq, Repr

/-- A summary register (Table 04-2). -/
structure Summ where
  max : BitVec 32 := 0
  sum : BitVec 32 := 0
  count : BitVec 32 := 0
  anyNan : Bool := false
  anyNonf : Bool := false
  seenRange : Bool := false
  seenInf : Bool := false
  seenNan : Bool := false
  op : Bool := false
  poison : Bool := false
  valid : Bool := false
deriving DecidableEq, Repr

/-- An accumulator row: 256 entries of 36 bits, entry n in bits [36n+35:36n], and its flag word (Table 03-8). -/
structure AccRow where
  e : BitVec 9216 := 0
  range : Bool := false
  inf : Bool := false
  nan : Bool := false
  poison : Bool := false
  int : Bool := false
deriving DecidableEq, Repr

/-- A stationary tile: element bytes and scale bytes per output column (R46). -/
structure Tile where
  cls : Cls := .fp8
  ty : Ty := .e4m3
  scaling : Scaling := .tensor
  tscale : Nat := 0x7F
  cols : Tab (List Byte) := []
  scales : Tab (List Byte) := []
deriving DecidableEq, Repr

/-- A stationary register (R49, R51). -/
structure Stat where
  tile : Tile := {}
  loading : Option Tile := none
  ready : Bool := false
  poison : Bool := false
deriving DecidableEq, Repr

/-- A function table (R83): its image, 1,040 words of 32 bits. `ready`: an image has been loaded; while a load is in
progress the table is not ready all the same (R84). -/
structure FTable where
  image : BitVec 33280 := 0
  ready : Bool := false
  poison : Bool := false
deriving DecidableEq, Repr

/-- Step number and draw counter of a converting unit (R41, R42). -/
structure Draw where
  step : Word := 0
  count : Nat := 0
deriving DecidableEq, Repr

/-- Restore point of a converting unit: the draw state at the first conversion of work tagged `tag` (R43). -/
structure DrawSave where
  tag : Word
  step : Word
  count : Nat
deriving DecidableEq, Repr

/-- What one stream row needs at the multiplier. -/
structure RowIn where
  cls : Cls
  ty : Ty
  scaling : Scaling
  codes : List Byte
  scales : List Byte
deriving DecidableEq, Repr

/-- Operands of an ME stream, as they stood at issue. -/
structure StreamOp where
  cls : Cls
  s : Nat
  base : Nat
  rows : Nat
  addr : Nat
  stride : Nat
  ty : Ty
  scaling : Scaling
  scale : Nat
  ovr : Bool
deriving DecidableEq, Repr

/-- An event of the timed machinery (R91). The first group are landings, the second timed local-store touches and
accumulator pair reads. Every operand was read at issue. -/
inductive Ev
  | landG (r : Nat) (v : Word)
  /-- lanes of `mask` take the bits of `val` -/
  | landV (r : Nat) (val mask : BitVec 16384)
  | landP (r : Nat) (val mask : BitVec 1024)
  | landS (r : Nat) (x : Summ) (merge : Bool)
  | landSeen (r : Nat) (range inf nan : Bool)
  | landExt (banks : BitVec 64)
  | landSeed (step : Word)
  | zeroRows (base rows k : Nat) (int : Bool)
  | landRow (row : Nat) (x : AccRow)
  | landStream (row s : Nat) (x : RowIn) (ovr : Bool)
  | statReady (s : Nat) (tile : Tile)
  | tableSwitch (t : Nat) (image : BitVec 33280) (squashed : Bool)
  | scLd (gd off : Nat)
  | scSt (off : Nat) (v : Word)
  | veLd (vd off : Nat) (mask keep : BitVec 16384)
  | veLdb (vd off : Nat) (w : Nat) (mask keep : BitVec 16384)
  | veSt (off : Nat) (data : List Byte)
  | veTld (t off k : Nat) (image : List Byte) (squashed : Bool)
  | mmLd (s : Nat) (t : Tile) (addr stride scale k : Nat)
  | mmStream (o : StreamOp) (i q : Nat) (part : List Byte)
  | accLd (base rows addr k : Nat) (form : Form)
  /-- `draw`: the mover's key and counter at issue; `seeded`: a later sr.seed has landed since -/
  | mvGo (m off : Nat) (draw : Draw) (seeded : Bool)
  | accRead (m addr stride row pairs i : Nat) (form : Form) (mode : Nat)
  | accWrite (addr stride : Nat) (lo hi : List Byte)
deriving DecidableEq, Repr

/-- An event in flight. `slot`: 0 scalar, 1 move, 2 matrix, 3 vector (Table 05-13). `tag`: EPOCH_TAG of the launch
that issued it. `no` numbers instructions in issue order. `bundle`: device address of its bundle. `stream`: command stream
of the launch. `keep`: registers or rows whose poison this write, issued before a squashed one, leaves (R68, R90). -/
structure Flight where
  due : Nat
  slot : Nat
  no : Nat
  tag : Word
  bundle : Nat
  ev : Ev
  stream : Nat := 64
  keep : BitVec 1024 := 0
deriving DecidableEq, Repr

/-- A condition that a core met (R120): code, logged address, slot; whose work it was (R102); the mover that refused
(R110); an access that would have written (R138). -/
structure Flt where
  code : Code
  addr : Nat
  slot : Nat
  prov : Option Word := none
  stream : Nat := 64
  mover : Option Nat := none
  store : Bool := false
deriving DecidableEq, Repr

/-- What provisional work tagged `tag` has written in the core (R68, R90, R118). -/
structure Trace where
  tag : Option Word := none
  g : BitVec 64 := 0
  v : BitVec 32 := 0
  p : BitVec 8 := 0
  s : BitVec 4 := 0
  t : BitVec 16 := 0
  stat : BitVec 2 := 0
  rows : BitVec 1024 := 0
deriving DecidableEq, Repr

/-- A part of a descriptor's destination that is written: plane, row, first element, count; `scale` for bytes of the
destination scale array. -/
structure Cover where
  scale : Bool
  k2 : Nat
  k1 : Nat
  k0 : Nat
  n : Nat
deriving DecidableEq, Repr

/-- An active descriptor (R106). `buf` holds the source bytes read so far, `index` the indices. -/
structure Active where
  d : Desc
  seq : Nat
  tag : Word
  /-- command stream whose launch issued it; 64 when there is none -/
  stream : Nat := 64
  key : Nat
  draw : Nat
  buf : Tab (Option Byte) := []
  index : Tab (Option Nat) := []
  covered : List Cover := []
  stopped : Bool := false
deriving DecidableEq, Repr

/-- A mover (Tables 05-21 to 05-25). -/
structure Mover where
  active : List Active := []
  cvt : Cvt := {}
  err : Bool := false
  errCode : Code := 0
  draw : Draw := {}
  save : Option DrawSave := none
  done : Word := 0
  seq : Nat := 0
  /-- descriptors that have completed and whose addition at another module is not acknowledged yet (R109, R169) -/
  signals : List Nat := []
deriving DecidableEq, Repr

/-- Ports of the ME, VE and accumulator file: the cycle from which each is free (R51, R72, R77). -/
structure Ports where
  load : Nat := 0
  stream : Nat := 0
  ls : Nat := 0
  acc : Nat := 0
  accRead : Nat := 0
  alu : Nat := 0
  fn : Nat := 0
  red : Nat := 0
  tl : Nat := 0
deriving DecidableEq, Repr

/-- Registers of the matrix engine (Tables 03-13 to 03-15). -/
structure MeRegs where
  accRange : Bool := false
  accInf : Bool := false
  accNan : Bool := false
  err : Bool := false
  errCode : Code := 0
  rows : Word := 0
deriving DecidableEq, Repr

/-- Registers of the vector engine (Tables 04-10 to 04-15). -/
structure VeRegs where
  cvt : Cvt := {}
  err : Bool := false
  errCode : Code := 0
  vPoison : BitVec 32 := 0
  pPoison : BitVec 8 := 0
  draw : Draw := {}
  save : Option DrawSave := none
deriving DecidableEq, Repr

/-- A core. -/
structure Core where
  g : Tab Word := []
  gPoison : BitVec 64 := 0
  run : Run := .idle
  err : Bool := false
  errCode : Code := 0
  waitLimit : BitVec 32 := 0
  extBanks : BitVec 64 := 0
  bundles : Tab (BitVec 256) := []
  launches : List Launch := []
  block : Option Launch := none
  pc : Nat := 0
  branch : Option BrPend := none
  waiting : Option Waiting := none
  dutyHold : Bool := false
  /-- stopped by a squash: takes no launch until it completes (R118) -/
  squashHold : Bool := false
  /-- contract cycles since reset; the next bundle issues in this cycle -/
  cycle : Nat := 0
  issued : Nat := 0
  /-- conditions met in the cycle in which the next bundle issues; they are taken with that cycle (R395) -/
  late : List Flt := []
  flights : List Flight := []
  gDue : Tab Nat := []
  vDue : Tab Nat := []
  pDue : Tab Nat := []
  sDue : Tab Nat := []
  trace : Trace := {}
  v : Tab (BitVec 16384) := []
  p : Tab (BitVec 1024) := []
  sum : Tab Summ := []
  /-- OP that each summary register will hold once every issued ve.summ has landed (R81) -/
  sumOp : Tab Bool := []
  tables : Tab FTable := []
  acc : Tab AccRow := []
  rowMode : Tab Bool := []
  rowPoison : Tab Bool := []
  stat : Tab Stat := []
  /-- cycle until which a stream reads the stationary register (R51) -/
  statUse : Tab Nat := []
  port : Ports := {}
  me : MeRegs := {}
  ve : VeRegs := {}
  mv : Tab Mover := []
deriving DecidableEq, Repr

end Sys2Proof.Machine
end

