-- ==== Sys2Proof/Machine/Tab.lean ====
section
/-! DEFINITION. Reading, writing and the canonical form of sparse tables. -/

namespace Sys2Proof

/-- What table `t` holds at key `k`; `d` where the key is not listed. -/
def Tab.get {α : Type} (d : α) : Tab α → Nat → α
  | [], _ => d
  | (a, x) :: r, k => if a = k then x else Tab.get d r k

/-- `t` without key `k`. -/
def Tab.drop {α : Type} (t : Tab α) (k : Nat) : Tab α :=
  t.filter fun e => e.1 != k

/-- The pair `(k, v)` put before the first larger key. -/
def Tab.ins {α : Type} (k : Nat) (v : α) : Tab α → Tab α
  | [] => [(k, v)]
  | (a, x) :: r => if k < a then (k, v) :: (a, x) :: r else (a, x) :: Tab.ins k v r

/-- `t` with `v` at key `k`; a key that holds the default is not listed. -/
def Tab.set {α : Type} [DecidableEq α] (d : α) (t : Tab α) (k : Nat) (v : α) : Tab α :=
  if v = d then Tab.drop t k else Tab.ins k v (Tab.drop t k)

/-- `t` with the value at `k` replaced by its image under `f`. -/
def Tab.mod {α : Type} [DecidableEq α] (d : α) (t : Tab α) (k : Nat) (f : α → α) : Tab α :=
  Tab.set d t k (f (Tab.get d t k))

/-- The canonical form: keys strictly rising, no entry equal to the default. -/
def Tab.wf {α : Type} [DecidableEq α] (d : α) (t : Tab α) : Bool :=
  decide (t.Pairwise fun a b => a.1 < b.1) && t.all fun e => e.2 != d

/-- Write the list `vs` at keys `k`, `k + 1`, …. -/
def Tab.setList {α : Type} [DecidableEq α] (d : α) : Tab α → Nat → List α → Tab α
  | t, _, [] => t
  | t, k, v :: vs => Tab.setList d (Tab.set d t k v) (k + 1) vs

/-- The `n` values at keys `k`, `k + 1`, …. -/
def Tab.getList {α : Type} (d : α) (t : Tab α) (k : Nat) : Nat → List α
  | 0 => []
  | n + 1 => Tab.get d t k :: Tab.getList d t (k + 1) n

/-- The keys from `lo` up to, not including, `hi` forgotten. -/
def Tab.clearRange {α : Type} (t : Tab α) (lo hi : Nat) : Tab α :=
  t.filter fun e => e.1 < lo || hi ≤ e.1

/-- Every listed value replaced by its image under `f`. -/
def Tab.mapVals {α : Type} (t : Tab α) (f : Nat → α → α) : Tab α :=
  t.map fun e => (e.1, f e.1 e.2)

/-- The key and value of the first listed entry that `p` accepts. -/
def Tab.findE {α : Type} (t : Tab α) (p : Nat → α → Bool) : Option (Nat × α) :=
  t.find? fun e => p e.1 e.2

/-- `x` put before the first element that it may precede. -/
def insertBy {α : Type} (le : α → α → Bool) (x : α) : List α → List α
  | [] => [x]
  | y :: r => if le x y then x :: y :: r else y :: insertBy le x r

/-- A list put in order; elements that may precede each other keep theirs. -/
def sortBy {α : Type} (le : α → α → Bool) (l : List α) : List α := l.foldr (insertBy le) []

end Sys2Proof
end

