-- ==== Sys2Proof/Machine/Operands.lean ====
section
/-! DEFINITION. Operand forms: bytes and words, packed elements (R22), vector lanes (R69), predicates (R70, R71),
accumulator entries, scale arrays (R24). -/

namespace Sys2Proof.Machine

open Sys2Proof.Num (Ty Scaling)

/-- Little-endian value of bytes (R3). -/
def leNat (bs : List Byte) : Nat := bs.foldr (fun b acc => b.toNat + 256 * acc) 0

/-- The low `n` bytes of a value, little-endian (R3). -/
def leBytes (v : Nat) (n : Nat) : List Byte := (List.range n).map fun i => BitVec.ofNat 8 (v / 2 ^ (8 * i))

/-- Bits `[h:l]` of a value (R3). -/
def bits (v h l : Nat) : Nat := v / 2 ^ l % 2 ^ (h + 1 - l)

/-- Bit `i` of a value. -/
def bit (v i : Nat) : Bool := v.testBit i

/-- `n` elements of `w` bits packed from the first byte (R22). -/
def unpack (w : Nat) (bs : List Byte) (n : Nat) : List Nat :=
  let v := leNat bs
  (List.range n).map fun i => v / 2 ^ (w * i) % 2 ^ w

/-- Elements of `w` bits packed into one value (R22). -/
def packNat (w : Nat) (es : List Nat) : Nat := es.foldr (fun e acc => e % 2 ^ w + 2 ^ w * acc) 0

/-- Elements of `w` bits packed into whole bytes (R22). -/
def pack (w : Nat) (es : List Nat) : List Byte := leBytes (packNat w es) ((w * es.length + 7) / 8)

/-- Bytes that `n` elements of a type fill (R22, R109). -/
def elemBytes (t : Ty) (n : Nat) : Nat := (t.bits * n + 7) / 8

/-- The 512 lanes of 32 bits of a vector register (R69). -/
def lanes32 (x : BitVec 16384) : List Nat := (List.range 512).map fun i => x.toNat / 2 ^ (32 * i) % 2 ^ 32

/-- The 1,024 lanes of 16 bits of a vector register (R69). -/
def lanes16 (x : BitVec 16384) : List Nat := (List.range 1024).map fun i => x.toNat / 2 ^ (16 * i) % 2 ^ 16

/-- A vector register from its lanes of `w` bits. -/
def ofLanes (w : Nat) (l : List Nat) : BitVec 16384 := BitVec.ofNat 16384 (packNat w l)

/-- The bytes of a vector register (R69). -/
def vBytes (x : BitVec 16384) : List Byte := leBytes x.toNat 2048

/-- All the bits of the lanes of `w` bits that `f` names. -/
def laneMask (w n : Nat) (f : Nat → Bool) : BitVec 16384 :=
  ofLanes w ((List.range n).map fun i => if f i then 2 ^ w - 1 else 0)

/-- The lanes that a governing predicate makes active (R71). -/
def activeMask (w n : Nat) (p : BitVec 1024) : BitVec 16384 := laneMask w n fun i => p.getLsbD i

/-- Bits of the destination that a write of lanes of `w` bits changes: the active lanes under MERGE, all lanes under
ZERO (R71). -/
def writeMask (w n : Nat) (p : BitVec 1024) (zero : Bool) : BitVec 16384 :=
  if zero then laneMask w n (fun _ => true) else activeMask w n p

/-- The lane values to write: +0 in inactive lanes (R71). -/
def govern (p : BitVec 1024) (l : List Nat) : List Nat :=
  l.mapIdx fun i x => if p.getLsbD i then x else 0

/-- Entry `n` of an accumulator row (36 bits). -/
def accEntry (r : AccRow) (n : Nat) : Nat := r.e.toNat / 2 ^ (36 * n) % 2 ^ 36

/-- The 256 entries of an accumulator row. -/
def accEntries (r : AccRow) : List Nat := (List.range 256).map (accEntry r)

/-- Entries put back into a row. -/
def ofEntries (l : List Nat) : BitVec 9216 := BitVec.ofNat 9216 (packNat 36 l)

/-- Row flag word (Table 03-8). -/
def AccRow.flags (r : AccRow) : Nat :=
  r.range.toNat + 2 * r.inf.toNat + 4 * r.nan.toNat + 8 * r.poison.toNat + 16 * r.int.toNat

/-- Segment width in lanes. -/
def Seg.width : Seg → Nat
  | .w32 => 32 | .w256 => 256 | .w512 => 512

/-- Reduction length of a pass (Table 03-1). -/
def Cls.kt : Cls → Nat
  | .fp4 => 512 | _ => 256

/-- Element type named by a 3-bit code in a class (Table 03-3). -/
def Cls.ty (c : Cls) (code : Nat) : Ty :=
  match code % 8 with
  | 0 => .e4m3 | 1 => .e5m2 | 2 => .e2m3 | 3 => .e3m2 | 4 => .e2m1 | 5 => .mxint8 | 6 => .int8
  | _ => if c = .fp16 then .fp16 else .bf16

/-- R48, Table 03-1: an operand type that a class admits on either side. -/
def Cls.admits (c : Cls) (t : Ty) : Bool :=
  match c with
  | .fp8 => t == .e4m3 || t == .e5m2 || t == .e2m3 || t == .e3m2 || t == .e2m1
  | .fp4 => t == .e2m1
  | .mxi8 => t == .mxint8
  | .i8 => t == .int8
  | .bf16 => t == .bf16
  | .fp16 => t == .fp16

/-- Table 03-1: a pair of streamed and stationary types that a class admits; mm.fp8 leaves E2M1 × E2M1 out. -/
def Cls.pairOk (c : Cls) (a w : Ty) : Bool :=
  c.admits a && c.admits w && !(c == .fp8 && a == .e2m1 && w == .e2m1)

/-- BF16 and FP16 rows take four cycles each (Table 03-4). -/
def Cls.wide (c : Cls) : Bool := c == .bf16 || c == .fp16

/-- Bytes of one K_t vector. -/
def Cls.rowBytes (c : Cls) (t : Ty) : Nat := elemBytes t c.kt

/-- Scale bytes of one row or column of a pass (R24, R46); 0 for per-tensor scaling. -/
def scaleBytes (kt : Nat) (k : Scaling) : Nat := if k.len = 0 then 0 else kt / k.len

/-- Offset of the scale bytes of row `i` within the scale array of a pass (R46). -/
def scaleOff (kt : Nat) (k : Scaling) (i : Nat) : Nat :=
  match k with
  | .tensor => 0
  | .tile => i / 32 * (kt / 32)
  | _ => i * (kt / k.len)

/-- Local-store lines that `n` bytes from offset `a` span (R103, R104). -/
def linesOf (a n : Nat) : List Nat :=
  if n = 0 then [] else (List.range ((a + n - 1) / 64 + 1 - a / 64)).map (a / 64 + ·)

/-- The bank of a line (R103). -/
def bankOf (line : Nat) : Nat := line % 64

end Sys2Proof.Machine
end

