-- ==== Sys2Proof/Machine/Descr.lean ====
section
/-! DEFINITION. Mover descriptors: reading one from its 128 bytes, the checks of R110, and what each destination
element holds (Table 05-11, R62, R63, R107, R109, R110). -/

namespace Sys2Proof.Machine

open Sys2Proof.Num

/-- Operation codes of Table 05-11. -/
def DOp.ofCode (n : Nat) : Option DOp :=
  match n with
  | 1 => some .copy | 2 => some .gather | 3 => some .scatter | 4 => some .transpose | 5 => some .fill
  | 6 => some .accumulate | _ => none

/-- R107: a local or remote address word; none where bits that must be zero are not. -/
def addrWord (remote : Bool) (w : Nat) : Option (Nat × Nat) :=
  if remote then
    (if bits w 47 44 = 0 ∧ bits w 63 62 = 0 then some (bits w 61 48, bits w 43 0) else none)
  else if bits w 63 48 = 0 then some (0, w) else none

/-- R107, R110: a descriptor read from its 128 bytes; none for a reserved OP or type, or a non-zero RSVD field. -/
def readDesc (bs : List Byte) : Option Desc :=
  let w (i : Nat) := leNat ((bs.drop (8 * i)).take 8)
  match DOp.ofCode (bits (w 0) 7 0), Ty.ofCode (bits (w 0) 11 8), Ty.ofCode (bits (w 0) 15 12),
      addrWord (bit (w 0) 26) (w 1), addrWord (bit (w 0) 27) (w 2) with
  | some op, some st, some dt, some src, some dst =>
    if bits (w 0) 31 29 = 0 ∧ bits (w 3) 63 48 = 0 ∧ bits (w 6) 63 48 = 0 ∧ bits (w 7) 63 56 = 0
        ∧ bits (w 8) 63 56 = 0 ∧ (List.range 5).all (fun i => w (11 + i) = 0)
        ∧ !(bit (w 0) 26 && bits (w 7) 47 44 != 0) ∧ !(bit (w 0) 27 && bits (w 8) 47 44 != 0) then
      some { op := op, srcTy := st, dstTy := dt, srcSc := Scaling.ofCode (bits (w 0) 17 16),
             dstSc := Scaling.ofCode (bits (w 0) 19 18), mode := bits (w 0) 21 20, reblock := bit (w 0) 22,
             auto := bit (w 0) 23, hint := bits (w 0) 25 24, srcRemote := bit (w 0) 26,
             dstRemote := bit (w 0) 27, class3 := bit (w 0) 28, counter := bits (w 0) 47 32,
             inc := bits (w 0) 63 48, src := src.2, srcId := src.1, dst := dst.2, dstId := dst.1,
             n0 := bits (w 3) 15 0 + 1, n1 := bits (w 3) 31 16 + 1, n2 := bits (w 3) 47 32 + 1,
             ss1 := bits (w 4) 31 0, ss2 := bits (w 4) 63 32, ds1 := bits (w 5) 31 0, ds2 := bits (w 5) 63 32,
             index := bits (w 6) 47 0, srcScale := bits (w 7) 47 0, srcT := bits (w 7) 55 48,
             dstScale := bits (w 8) 47 0, dstT := bits (w 8) 55 48, mask := BitVec.ofNat 64 (w 9),
             aux := bits (w 10) 31 0, rcounter := bits (w 10) 47 32, rinc := bits (w 10) 62 48,
             rcEn := bit (w 10) 63 }
    else none
  | _, _, _, _, _ => none

/-- Rows of the destination: a transpose exchanges rows and elements (R109). -/
def Desc.rows (d : Desc) : Nat := if d.op = .transpose then d.n0 else d.n1

/-- Elements of a destination row. -/
def Desc.cols (d : Desc) : Nat := if d.op = .transpose then d.n1 else d.n0

/-- Destination elements of the whole descriptor. -/
def Desc.total (d : Desc) : Nat := d.n0 * d.n1 * d.n2

/-- A dimension that a block or tile spans is a multiple of the span (R24). -/
def spanOk (k : Scaling) (rows cols : Nat) : Bool :=
  match k with
  | .tensor => true
  | .tile => rows % 32 == 0 && cols % 32 == 0
  | _ => cols % k.len == 0

/-- R109: rows fill whole bytes and whole packed groups. -/
def packOk (t : Ty) (n : Nat) : Bool :=
  match t with
  | .e2m1 => n % 2 == 0
  | .e2m3 | .e3m2 => n % 4 == 0
  | _ => true

/-- Source of the descriptor is block-scaled, so that a transpose re-blocks it (R63). -/
def Desc.srcBlock (d : Desc) : Bool := d.srcSc == .block16 || d.srcSc == .block32

/-- R110: the descriptor is one that the mover accepts. `FILL` has no source. -/
def Desc.ok (d : Desc) : Bool :=
  let fill := d.op == .fill
  let same := d.srcTy == d.dstTy
  (fill || scalingOk d.srcTy d.srcSc d.srcT)
    && scalingOk d.dstTy d.dstSc d.dstT
    && (fill || same || directOk d.srcTy d.dstTy)
    && (fill || !same || (d.srcSc == d.dstSc && (d.srcSc != .tensor || d.srcT == d.dstT)))
    && !(same && (d.op == .gather || d.op == .scatter) && d.srcSc == .tile)
    && (d.reblock == (d.op == .transpose && d.srcBlock))
    && (!d.rcEn || d.dstRemote)
    && (fill || spanOk d.srcSc d.n1 d.n0) && spanOk d.dstSc d.rows d.cols
    && (!d.reblock || d.n1 % d.srcSc.len == 0)
    && (fill || packOk d.srcTy d.n0) && packOk d.dstTy d.n0
    && (d.n2 == 1 || !(d.op == .gather || d.op == .scatter || d.op == .transpose))
    && !(d.op == .accumulate && !d.dstRemote && decide (d.dst < 0x08000000))

/-- The descriptor converts between types: R31 to R38 apply and CVT_MODE is looked at (R109). -/
def Desc.converts (d : Desc) : Bool := d.op != .fill && d.srcTy != d.dstTy

/-- Values of the draw counter that the descriptor takes at issue (R41, R106). -/
def Desc.draws (d : Desc) : Nat :=
  if d.converts && d.mode % 2 == 1 then (d.total + 1023) / 1024 else 0

/-- Byte address of source row `k1` of plane `k2`, in 64-bit arithmetic (R109). -/
def Desc.srcRow (d : Desc) (k2 k1 : Nat) : Nat := (d.src + k2 * d.ss2 + k1 * d.ss1) % 2 ^ 64

/-- Byte address of destination row `k1` of plane `k2`, in 64-bit arithmetic (R109). -/
def Desc.dstRow (d : Desc) (k2 k1 : Nat) : Nat := (d.dst + k2 * d.ds2 + k1 * d.ds1) % 2 ^ 64

/-- Source row that feeds destination row `k1`, and the destination row number to write (R109). -/
def Active.rowPair (a : Active) (k1 : Nat) : Option (Nat × Nat) :=
  match a.d.op with
  | .gather => (a.index.get none k1).map fun i => (i, k1)
  | .scatter => (a.index.get none k1).map fun i => (k1, i)
  | _ => some (k1, k1)

/-- Keys of the source buffer: element bytes by address, scale bytes above 2^62. -/
def scaleKey (a : Nat) : Nat := 2 ^ 62 + a

/-- `n` bytes of the buffer from key `k`; none where one has not been read. -/
def bufBytes (b : Tab (Option Byte)) (k n : Nat) : Option (List Byte) :=
  (List.range n).foldr (fun i acc => match b.get none (k + i), acc with
    | some x, some l => some (x :: l)
    | _, _ => none) (some [])

/-- Code of source element (k2, row k1, k0). -/
def Active.srcCode (a : Active) (k2 k1 k0 : Nat) : Option Nat :=
  let w := a.d.srcTy.bits
  let bitPos := w * k0
  let first := bitPos / 8
  let last := (bitPos + w - 1) / 8
  (bufBytes a.buf (a.d.srcRow k2 k1 + first) (last + 1 - first)).map fun bs =>
    leNat bs / 2 ^ (bitPos % 8) % 2 ^ w

/-- Index, within the source scale array, of the scale of an element (R24). -/
def scaleIndex (k : Scaling) (cols row col : Nat) : Nat :=
  match k with
  | .tensor => 0
  | .tile => row / 32 * (cols / 32) + col / 32
  | _ => row * (cols / k.len) + col / k.len

/-- Scale code of source element (k2, k1, k0). Rows of later planes follow those of earlier ones. -/
def Active.srcScaleCode (a : Active) (k2 k1 k0 : Nat) : Option Nat :=
  if a.d.srcSc.len = 0 then some a.d.srcT
  else
    (a.buf.get none (scaleKey (a.d.srcScale + scaleIndex a.d.srcSc a.d.n0 (k2 * a.d.n1 + k1) k0))).map (·.toNat)

/-- Source coordinates of destination element (k2, k1, k0). -/
def Active.srcCoord (a : Active) (k2 k1 k0 : Nat) : Option (Nat × Nat × Nat) :=
  if a.d.op = .transpose then some (k2, k0, k1)
  else (a.rowPair k1).map fun r => (k2, r.1, k0)

/-- Sequence of options, all present. -/
def allSome {α : Type} : List (Option α) → Option (List α)
  | [] => some []
  | none :: _ => none
  | some x :: r => (allSome r).map (x :: ·)

/-- R63: the scale code of the new block that covers old column `col` of the square at old rows `r0`. A block with an
element that is NaN or infinity follows R27, as R37 says of block-scaled targets (log entry 74). -/
def Active.reScale (a : Active) (r0 col : Nat) : Option Nat :=
  match allSome ((List.range a.d.srcSc.len).map fun i => a.srcScaleCode 0 (r0 + i) col),
      allSome ((List.range a.d.srcSc.len).map fun i => a.srcCode 0 (r0 + i) col) with
  | some cs, some xs => some (if xs.all fun x => (a.d.srcTy.decode x).finite then cs.foldl max 0 else 0xFF)
  | _, _ => none

/-- R63: an element of a re-blocked transpose: new code and flags. -/
def Active.reElem (a : Active) (oldRow oldCol : Nat) : Option (Nat × Cvt) :=
  let b := a.d.srcSc.len
  match a.reScale (oldRow / b * b) oldCol, a.srcScaleCode 0 oldRow oldCol, a.srcCode 0 oldRow oldCol with
  | some cn, some co, some x =>
    if cn = 0xFF then some (0, { nanscale := true })
    else
      some (convertElem a.d.srcTy { sr := false, nsat := false } 0
        ((a.d.srcTy.decode x).scale ((co : Int) - (cn : Int))))
  | _, _, _ => none

/-- Exact value of the source of a destination element (R25). -/
def Active.srcVal (a : Active) (k2 k1 k0 : Nat) : Option (Val × Cvt) :=
  match a.srcCoord k2 k1 k0 with
  | none => none
  | some (p, r, c) =>
    if a.d.reblock then
      match a.reElem r c, a.reScale (r / a.d.srcSc.len * a.d.srcSc.len) c with
      | some (x, f), some s => some (decodeScaled a.d.srcTy x s, f)
      | _, _ => none
    else
      match a.srcCode p r c, a.srcScaleCode p r c with
      | some x, some s => some (if a.d.srcTy.scaled then decodeScaled a.d.srcTy x s else a.d.srcTy.decode x, {})
      | _, _ => none

/-- The destination row number that row `k1` of the destination walk is written to (R109). -/
def Active.dstRowNo (a : Active) (k1 : Nat) : Option Nat :=
  if a.d.op = .scatter then a.index.get none k1 else some k1

/-- Where each destination row starts, in bits, in the order of the walk; none while an index is missing. -/
def Active.rowStarts (a : Active) : Option (List Nat) :=
  allSome ((List.range a.d.n2).flatMap fun p => (List.range a.d.rows).map fun r =>
    (a.dstRowNo r).map fun x => 8 * a.d.dstRow p x)

/-- R41: how many destination elements come before element (k2, k1, k0) in increasing address order; equal addresses in
the order of the walk (log entry 75). -/
def Active.rank (a : Active) (starts : List Nat) (k2 k1 k0 : Nat) : Nat :=
  let w := a.d.dstTy.bits
  let i := k2 * a.d.rows + k1
  let here := (starts[i]?).getD 0 + w * k0
  (starts.mapIdx fun j b => min a.d.cols (((if j < i then here + 1 else here) - b + w - 1) / w)).foldl (· + ·) 0

/-- R41: the draw of the destination element of rank `i`. -/
def Active.drawAt (a : Active) (i : Nat) : Nat :=
  if a.d.mode % 2 = 1 then drawOf a.key ((a.draw + i / 1024) % 2 ^ 48) (i % 1024) else 0

/-- Rows of the walk whose elements share a destination tile with row `k1`: rows of one row of tiles (R24). -/
def Active.tileRows (a : Active) (k1 : Nat) : List Nat :=
  if a.d.op = .scatter then
    (List.range a.d.rows).filter fun r => (a.dstRowNo r).map (· / 32) == (a.dstRowNo k1).map (· / 32)
  else (List.range 32).map fun i => k1 / 32 * 32 + i

/-- Scale code of the destination block or tile that holds element (k2, k1, k0) when the mover chooses it
(R26, R27). -/
def Active.autoScale (a : Active) (k2 k1 k0 : Nat) : Option Nat :=
  let c0 := k0 / a.d.dstSc.len * a.d.dstSc.len
  let vs := (if a.d.dstSc = .tile then a.tileRows k1 else [k1]).flatMap fun r => (List.range a.d.dstSc.len).map fun j =>
    (a.srcVal k2 r (c0 + j)).map (·.1)
  (allSome vs).map fun l => scaleCode a.d.dstTy (amaxOf l)

/-- Keys of the buffer for given destination scales, read from DST_SCALE_ADDR before the elements are converted. -/
def givenKey (a : Nat) : Nat := 2 ^ 63 + a

/-- Scale code of the destination block or tile that holds element (k2, k1, k0). -/
def Active.dstScaleCode (a : Active) (k2 k1 k0 : Nat) : Option Nat :=
  if a.d.dstSc.len = 0 then some a.d.dstT
  else if a.d.op = .fill then some a.d.dstT
  else if !a.d.converts then
    (if a.d.reblock then a.reScale (k0 / a.d.srcSc.len * a.d.srcSc.len) k1
     else match a.srcCoord k2 k1 k0 with
       | some (p, r, c) => a.srcScaleCode p r c
       | none => none)
  else if a.d.auto then a.autoScale k2 k1 k0
  else match a.dstRowNo k1 with
    | some r =>
      (a.buf.get none (givenKey (a.d.dstScale + scaleIndex a.d.dstSc a.d.cols (k2 * a.d.rows + r) k0))).map (·.toNat)
    | none => none

/-- R109: code and flags of destination element (k2, k1, k0); `starts` is where the rows start, for the draws; `scale` its
scale code. -/
def Active.elem (a : Active) (starts : List Nat) (scale : Option Nat) (k2 k1 k0 : Nat) : Option (Nat × Cvt) :=
  if a.d.op = .fill then some (a.d.aux % 2 ^ a.d.dstTy.bits, {})
  else if !a.d.converts then
    (if a.d.reblock then a.reElem k0 k1
     else match a.srcCoord k2 k1 k0 with
       | some (p, r, c) => (a.srcCode p r c).map fun x => (x, {})
       | none => none)
  else
    match a.srcVal k2 k1 k0, scale with
    | some (v, f), some c =>
      let md := Mode.ofCode a.d.mode
      let dr := if a.d.mode % 2 = 1 then a.drawAt (a.rank starts k2 k1 k0) else 0
      let r := if a.d.dstTy.scaled then convertGiven a.d.dstTy a.d.dstSc.blocky c md dr v
        else convert a.d.dstTy md dr v
      some (r.1, f.or r.2)
    | _, _ => none

/-- R109: bytes of `n` destination elements of row `k1` from element `k0`, and the flags they raise.
None while a source is missing. -/
def Active.rowBytes (a : Active) (k2 k1 k0 n : Nat) : Option (List Byte × Cvt) :=
  match if a.d.converts && a.d.mode % 2 == 1 then a.rowStarts else some [] with
  | none => none
  | some starts =>
    let len := if a.d.dstSc.len = 0 then a.d.cols else a.d.dstSc.len
    let b0 := k0 / len
    let scales := (List.range ((k0 + n - 1) / len + 1 - b0)).map fun b => a.dstScaleCode k2 k1 ((b0 + b) * len)
    (allSome ((List.range n).map fun i =>
        a.elem starts ((scales[(k0 + i) / len - b0]?).getD none) k2 k1 (k0 + i))).map fun es =>
      (pack a.d.dstTy.bits (es.map (·.1)), es.foldl (fun f e => f.or e.2) Cvt.none)

/-- Device address or offset of destination element `k0` of row `k1`. -/
def Active.dstAddr (a : Active) (k2 k1 k0 : Nat) : Option Nat :=
  (a.dstRowNo k1).map fun r => a.d.dstRow k2 r + a.d.dstTy.bits * k0 / 8

/-- The destination scale array is written: not for per-tensor scaling, nor for given scales, which are read
there (R109). -/
def Desc.writesScales (d : Desc) : Bool := d.dstSc.len != 0 && (!d.converts || d.auto)

/-- Rows of scale bytes of one plane of the destination: one a row, or one a row of tiles. A SCATTER writes the scales of
a row of tiles with each of its rows. -/
def Desc.scaleRows (d : Desc) : Nat := if d.dstSc = .tile ∧ d.op ≠ .scatter then d.rows / 32 else d.rows

/-- Scale bytes of one such row. -/
def Desc.scaleCols (d : Desc) : Nat := if d.dstSc.len = 0 then 0 else d.cols / d.dstSc.len

/-- Bytes that the descriptor writes to its destination scale array (R109). -/
def Desc.scaleTotal (d : Desc) : Nat := if d.writesScales then d.n2 * d.scaleRows * d.scaleCols else 0

/-- Bytes `j` to `j + n - 1` of scale row `k1` of plane `k2` of the destination. -/
def Active.scaleBytes (a : Active) (k2 k1 j n : Nat) : Option (List Byte) :=
  let row := if a.d.dstSc = .tile ∧ a.d.op ≠ .scatter then k1 * 32 else k1
  allSome ((List.range n).map fun i =>
    (a.dstScaleCode k2 row ((j + i) * a.d.dstSc.len)).map (BitVec.ofNat 8))

/-- Where those bytes go. -/
def Active.scaleAddr (a : Active) (k2 k1 j : Nat) : Option Nat :=
  (a.dstRowNo k1).map fun r =>
    a.d.dstScale + (k2 * a.d.scaleRows + (if a.d.dstSc = .tile ∧ a.d.op = .scatter then r / 32 else r)) * a.d.scaleCols + j

/-- A part that no earlier write of the descriptor covers. -/
def Cover.fresh (c : Cover) (l : List Cover) : Bool :=
  l.all fun x => x.scale != c.scale || x.k2 != c.k2 || x.k1 != c.k1 || decide (x.k0 + x.n ≤ c.k0)
    || decide (c.k0 + c.n ≤ x.k0)

/-- Every destination element and scale byte is written (R109). -/
def Active.complete (a : Active) : Bool :=
  let sum (b : Bool) := (a.covered.filter (·.scale == b)).foldl (fun n c => n + c.n) 0
  !a.stopped && decide (a.d.total ≤ sum false) && decide (a.d.scaleTotal ≤ sum true)

end Sys2Proof.Machine
end

