-- ==== Sys2Proof/Machine/MeOps.lean ====
section
/-! DEFINITION. Arithmetic of the matrix engine: groups, special values, accumulation and read-out
(R52 to R60, R64, R65). -/

namespace Sys2Proof.Machine

open Sys2Proof.Num

/-- Flags that an update of an entry raises: RANGE, INF, NAN (R58, R59). -/
structure AccFlag where
  range : Bool := false
  inf : Bool := false
  nan : Bool := false
deriving DecidableEq, Repr

def AccFlag.or (a b : AccFlag) : AccFlag :=
  { range := a.range || b.range, inf := a.inf || b.inf, nan := a.nan || b.nan }

/-- The flags of the code that a group left in an entry (R58). -/
def leaves (code : Nat) (range : Bool) : AccFlag :=
  { range := range, inf := (fmtExt.decode code).isInf, nan := (fmtExt.decode code).isNan }

/-- Canonical codes of the extended format (Table 03-7). -/
def extNan : Nat := 0x7FF000000
def extInf (neg : Bool) : Nat := fmtExt.withSign neg 0x7FE000000

/-- R58: the special value of a group, of its element pairs and scale codes. `none` when it has none. -/
def special (ps : List (Val × Val)) (sa sb : Nat) : Option Val :=
  let prods := ps.map fun p => p.1.mul p.2
  if sa = 0xFF || sb = 0xFF || ps.any (fun p => p.1.isNan || p.2.isNan) || prods.any Val.isNan
      || (prods.any (· == .inf false) && prods.any (· == .inf true)) then some .nan
  else if prods.any (· == .inf false) then some (.inf false)
  else if prods.any (· == .inf true) then some (.inf true)
  else none

/-- R58: an accumulator entry met by a special value. -/
def combine (acc : Nat) (sp : Val) : Nat :=
  match fmtExt.decode acc, sp with
  | .nan, _ => extNan
  | _, .nan => extNan
  | .inf s, .inf t => if s = t then extInf t else extNan
  | _, .inf t => extInf t
  | _, _ => acc

/-- The exact sum of a group's products (R56). -/
def groupSum (ps : List (Val × Val)) : Val := ps.foldl (fun s p => s.add (p.1.mul p.2)) (.fin false 0 0)

/-- R57: binade exponent of a non-zero element with `p` fraction bits. -/
def binade (p : Nat) (v : Val) : Int :=
  match v with
  | .fin _ _ e => e + p
  | _ => 0

/-- R57: the windowed sum T in units of 2^(E − 64), that unit's exponent, and STICKY. -/
def windowSum (p : Nat) (ps : List (Val × Val)) : Int × Int × Bool :=
  let ne := ps.filter fun x => !x.1.isZero && !x.2.isZero
  let es := ne.map fun x => binade p x.1 + binade p x.2
  let k := es.foldl max (es.headD 0) - 64
  ne.foldl (fun acc x =>
    match x.1.mul x.2 with
    | .fin s m e =>
      if k ≤ e then (acc.1 + align (sm s m) e k, k, acc.2.2)
      else
        let d := 2 ^ (k - e).toNat
        (acc.1 + sm s (m / d), k, acc.2.2 || decide (m % d ≠ 0))
    | _ => acc) (0, k, false)

/-- R56 to R59: one group added to an entry of a FLOAT row. A group that adds nothing still raises the flags of a NaN or an infinity
that it leaves (R58). -/
def addGroup (c : Cls) (acc : Nat) (ps : List (Val × Val)) (sa sb : Nat) : Nat × AccFlag :=
  match special ps sa sb with
  | some sp =>
    let r := combine acc sp
    (r, leaves r false)
  | none =>
    if c.wide then
      let p := if c = .bf16 then 7 else 10
      let w := windowSum p ps
      if w.1 = 0 then (acc, leaves acc false)
      else
        let v := (fmtExt.decode acc).add (ofInt w.1 w.2.1)
        let r := if w.2.2 then roundExtSticky v (w.1 < 0) else roundExt v
        (r.1, leaves r.1 r.2)
    else if ps.all fun x => x.1.isZero || x.2.isZero then (acc, leaves acc false)
    else
      let x := (groupSum ps).scale ((sa : Int) - 127 + ((sb : Int) - 127))
      let r := roundExt ((fmtExt.decode acc).add x)
      (r.1, leaves r.1 r.2)

/-- R60: one group added to an entry of an INT row. -/
def addGroupInt (acc : Nat) (ps : List (Val × Val)) : Nat × AccFlag :=
  let sum := ps.foldl (fun (z : Int) x =>
    match x.1.mul x.2 with
    | .fin s m e => z + align (sm s m) e 0
    | _ => z) 0
  let r := sext 36 acc + sum
  if r < -(2 ^ 35) then (2 ^ 35, { range := true })
  else if 2 ^ 35 - 1 < r then (2 ^ 35 - 1, { range := true })
  else (wrap 36 r, {})

/-- Group size of a pass (Table 03-1). -/
def groupSize (c : Cls) (a w : Scaling) : Nat :=
  match c with
  | .bf16 | .fp16 => 8
  | .fp8 | .fp4 => if a == .block16 || w == .block16 then 16 else 32
  | _ => 32

/-- Scale code that governs reduction position `k` (R47). A per-tensor code stands alone in the list. -/
def scaleAt (s : Scaling) (codes : List Byte) (k : Nat) : Nat :=
  if s.len = 0 then (codes.headD 0x7F).toNat else ((codes[k / s.len]?).getD 0).toNat

/-- R56: the groups of a pass from position `k` on, in increasing reduction index. -/
def addGroups (c : Cls) (gs : Nat) (a : RowIn) (wSc : Scaling) (wScales : List Byte) :
    Nat → Nat → List (Val × Val) → Nat → Nat × AccFlag
  | 0, _, _, acc => (acc, {})
  | n + 1, k, ps, acc =>
    let grp := ps.take gs
    let r := if c = .i8 then addGroupInt acc grp
      else addGroup c acc grp (scaleAt a.scaling a.scales k) (scaleAt wSc wScales k)
    let q := addGroups c gs a wSc wScales n (k + gs) (ps.drop gs) r.1
    (q.1, r.2.or q.2)

/-- R56, R60: entry of one column after a pass. -/
def passEntry (a : RowIn) (t : Tile) (n : Nat) (acc : Nat) : Nat × AccFlag :=
  let kt := a.cls.kt
  let gs := groupSize a.cls a.scaling t.scaling
  let va := (unpack a.ty.bits a.codes kt).map a.ty.decode
  let vb := (unpack t.ty.bits (t.cols.get [] n) kt).map t.ty.decode
  let wScales := if t.scaling.len = 0 then [BitVec.ofNat 8 t.tscale] else t.scales.get [] n
  addGroups a.cls gs a t.scaling wScales (kt / gs) 0 (va.zip vb) acc

/-- R56, R55: an accumulator row after one streamed row. -/
def passRow (a : RowIn) (t : Tile) (ovr : Bool) (r : AccRow) : AccRow × AccFlag :=
  let start := if ovr then { ({} : AccRow) with int := a.cls == .i8 } else r
  let es := (List.range 256).map fun n => passEntry a t n (accEntry start n)
  let f := es.foldl (fun (x : AccFlag) e => x.or e.2) {}
  ({ start with e := ofEntries (es.map (·.1)), range := start.range || f.range, inf := start.inf || f.inf,
                nan := start.nan || f.nan }, f)

/-- R65: an FP32 code in the extended format, exactly. -/
def f32ToExt (code : Nat) : Nat :=
  match f32 code with
  | .nan => extNan
  | .inf s => extInf s
  | .fin s m e => if m = 0 then fmtExt.withSign s 0 else (roundExt (.fin s m e)).1

/-- R65: an accumulator row from its image in the local store. -/
def accImage (form : Form) (bs : List Byte) : AccRow :=
  match form with
  | .fp32 => { e := ofEntries ((unpack 32 bs 256).map f32ToExt) }
  | .int32 => { e := ofEntries ((unpack 32 bs 256).map fun x => wrap 36 (sext 32 x)), int := true }
  | .raw =>
    let ws := unpack 64 bs 256
    let f := ws.headD 0 / 2 ^ 36
    { e := ofEntries (ws.map (· % 2 ^ 36)), range := bit f 0, inf := bit f 1, nan := bit f 2, int := bit f 4 }

/-- R64: an entry read as FP32. -/
def readF32 (int : Bool) (md : Mode) (draw code : Nat) : Nat × Cvt :=
  fmtFP32.convert md draw (if int then ofInt (sext 36 code) 0 else fmtExt.decode code)

/-- R64, R76: an entry read as INT32. -/
def readI32 (int : Bool) (md : Mode) (draw code : Nat) : Nat × Cvt :=
  convertInt 32 0 md draw (if int then ofInt (sext 36 code) 0 else fmtExt.decode code)

/-- R65: the RAW image of a row. -/
def rawImage (r : AccRow) : List Byte :=
  (accEntries r).flatMap fun e => leBytes (e + r.flags * 2 ^ 36) 8

end Sys2Proof.Machine
end

