-- ==== Sys2Proof/Config.lean ====
section
/-! DEFINITION. What the manual leaves open: free values, and functions of standards outside the manual.
None of these has a body, so nothing can be proved about a value of theirs (assumption log 2). -/

namespace Sys2Proof.Config

/-- A free value: what the manual leaves open at the `n`-th such occasion of a run (assumption log 2). -/
opaque free : Nat → Word

/-- R140: the cache set of an address within a partition's share is not part of the contract. -/
opaque cacheSet : Nat → Nat → Nat

/-- R140: which line of a full set gives way, as an index into the lines that may. -/
opaque victim : Nat → Nat

/-- R22, R109: the bits that no element fills in the last byte, at this address, of a transposed row of FP4 or FP6 elements. -/
opaque padBits : Nat → Nat

/-- SHA3-512 of a byte string (R368, R377; the standard is outside the manual). -/
opaque sha3 : List Byte → BitVec 512

/-- ML-DSA-87 signature check: public key, message, signature (R368, R376). -/
opaque mldsaOk : List Byte → List Byte → List Byte → Bool

/-- KMAC256 of key and message (R375). -/
opaque kmac : BitVec 256 → List Byte → BitVec 256

/-- Nominal voltage, mV, of the rail of a power domain other than a core's (R359). -/
opaque railNominal : Nat → Nat

/-- A digest that an SPDM answer carries (R372). -/
opaque spdmDigest : Word → BitVec 512

/-- LOG_SIZE of the header that partition `p` keeps at its log holder: no register gives the bytes set aside for the log (R280). -/
opaque logSize : Nat → Word

/-- AES-256-GCM of the chunks of a frame slot: key, groups sent before, plain bytes. Where the tags stand is not stated (R214). -/
opaque linkSeal : BitVec 256 → Nat → List Byte → List Byte

end Sys2Proof.Config
end

