-- ==== Sys2Proof/Machine/VeOps.lean ====
section
/-! DEFINITION. Arithmetic of the vector engine: lanes, reductions, summaries, conversions and function tables
(R74, R75, R78 to R82, R85, R86). -/

namespace Sys2Proof.Machine

open Sys2Proof.Num

/-- Canonical NaN of FP32 (R37). -/
def nan32 : Nat := 0x7FC00000
def negInf32 : Nat := 0xFF800000
def posInf32 : Nat := 0x7F800000

/-- R74: the FP32, INT32 and logic operations on two lanes. The BF16 ones take 16-bit lanes. -/
def BinOp.lane (op : BinOp) (a b : Nat) : Nat :=
  match op with
  | .addF32 => Num.addF32 a b
  | .subF32 => toF32 ((f32 a).add (f32 b).neg)
  | .mulF32 => Num.mulF32 a b
  | .addBF16 => toBF ((bf a).add (bf b))
  | .mulBF16 => toBF ((bf a).mul (bf b))
  | .addI32 => (a + b) % 2 ^ 32
  | .subI32 => (a + 2 ^ 32 - b % 2 ^ 32) % 2 ^ 32
  | .shlI32 => a * 2 ^ (b % 32) % 2 ^ 32
  | .shrI32 => a / 2 ^ (b % 32)
  | .and => a &&& b
  | .or => a ||| b
  | .xor => a ^^^ b
  | .minF32 => Num.minF32 a b
  | .maxF32 => Num.maxF32 a b

/-- Lane width of an operation in bits. -/
def BinOp.width : BinOp → Nat
  | .addBF16 | .mulBF16 => 16
  | _ => 32

/-- Contract cycles from issue to result (Table 04-1). -/
def BinOp.lat : BinOp → Nat
  | .addF32 | .subF32 | .mulF32 | .addBF16 | .mulBF16 => 4
  | _ => 2

/-- R74: fused multiply-add and -subtract, one rounding. -/
def TriOp.lane (op : TriOp) (a b c : Nat) : Nat :=
  match op with
  | .fmaF32 => Num.fmaF32 a b c
  | .fmsF32 => toF32 (((f32 a).mul (f32 b)).add (f32 c).neg)
  | .fmaBF16 => toBF (((bf a).mul (bf b)).add (bf c))

def TriOp.width : TriOp → Nat
  | .fmaBF16 => 16
  | _ => 32

/-- Absolute value and negation act on the sign; a NaN result is the canonical NaN (R74). -/
def UnOp.lane (op : UnOp) (a : Nat) : Nat :=
  match op with
  | .absF32 => if (f32 a).isNan then nan32 else a % 2 ^ 31
  | .negF32 => if (f32 a).isNan then nan32 else a ^^^ 2 ^ 31
  | .mov => a

/-- The condition of a compare, given less-than and equality; unordered operands satisfy NE alone (R74, IEEE 754). -/
def CmpC.holds (c : CmpC) (nan lt eq : Bool) : Bool :=
  match c with
  | .eq => eq
  | .ne => !eq
  | .lt => lt
  | .le => lt || eq
  | .gt => !nan && !lt && !eq
  | .ge => !nan && !lt

def cmpLaneF (c : CmpC) (a b : Nat) : Bool :=
  c.holds ((f32 a).isNan || (f32 b).isNan) ((f32 a).lt (f32 b)) ((f32 a).eqv (f32 b))

def cmpLaneI (c : CmpC) (a b : Nat) : Bool :=
  c.holds false (sext 32 a < sext 32 b) (a == b)

/-- A predicate from its bits. -/
def ofPred (l : List Bool) : BitVec 1024 :=
  BitVec.ofNat 1024 (l.foldr (fun b acc => b.toNat + 2 * acc) 0)

/-- R70, R71: bits of a predicate register that a compare writes, and their values: bits 512 to 1,023 are cleared, by an INT32
compare as by an FP32 one (log entry 96). -/
def cmpWrite (p : BitVec 1024) (zero : Bool) (l : List Bool) : BitVec 1024 × BitVec 1024 :=
  let low : BitVec 1024 := BitVec.ofNat 1024 (2 ^ 512 - 1)
  (ofPred l &&& p &&& low, if zero then BitVec.allOnes 1024 else p ||| ~~~low)

/-- R75: one operation of the reduction tree. -/
def RedOp.op (r : RedOp) (a b : Nat) : Nat :=
  match r with
  | .sum => Num.addF32 a b
  | .max => Num.maxF32 a b
  | .amax => maxMagF32 a b

/-- R75: what an inactive lane contributes. -/
def RedOp.neutral : RedOp → Nat
  | .max => negInf32
  | _ => 0

/-- One level of the tree: neighbours combined. -/
def treeLevel (f : Nat → Nat → Nat) : List Nat → List Nat
  | a :: b :: r => f a b :: treeLevel f r
  | r => r

/-- R75: the tree over a list whose length is a power of two, `n` levels deep. -/
def tree (f : Nat → Nat → Nat) : Nat → List Nat → Nat
  | 0, l => l.headD 0
  | n + 1, l => tree f n (treeLevel f l)

/-- The lanes of one segment from lane `k`, inactive ones neutral. -/
def segLanes (p : BitVec 1024) (neutral : Nat) (l : List Nat) (k w : Nat) : List Nat :=
  (List.range w).map fun i => if p.getLsbD (k + i) then (l[k + i]?).getD 0 else neutral

/-- Levels of a segment: the logarithm of its width. -/
def Seg.levels : Seg → Nat
  | .w32 => 5 | .w256 => 8 | .w512 => 9

/-- R75: each segment's value in every lane of it. A single active NaN makes the result NaN. -/
def reduce (op : RedOp) (w : Seg) (p : BitVec 1024) (l : List Nat) : List Nat :=
  (List.range (512 / w.width)).flatMap fun j =>
    let x := tree op.op w.levels (segLanes p op.neutral l (j * w.width) w.width)
    List.replicate w.width (if (f32 x).isNan then nan32 else x)

/-- R81: what ve.summ computes over the active lanes. -/
def summOf (p pc : BitVec 1024) (mag : Bool) (l : List Nat) : Summ :=
  let act := (List.range 512).filter fun i => p.getLsbD i
  let vs := act.map fun i => (l[i]?).getD 0
  let mx := if mag then vs.foldl maxMagF32 0 else vs.foldl maxF32 negInf32
  { max := BitVec.ofNat 32 mx
    sum := BitVec.ofNat 32 (tree addF32 9 (segLanes p 0 l 0 512))
    count := BitVec.ofNat 32 (act.filter fun i => pc.getLsbD i).length
    anyNan := vs.any fun x => (f32 x).isNan
    anyNonf := vs.any fun x => (f32 x).isNan || (f32 x).isInf
    op := mag, valid := true }

/-- R81: a SET replaces, a MERGE combines with what the register holds as the result lands. -/
def landSumm (old new : Summ) (merge : Bool) : Summ :=
  if !merge then new
  else
    { old with
      max := BitVec.ofNat 32 ((if new.op then maxMagF32 else maxF32) old.max.toNat new.max.toNat)
      sum := BitVec.ofNat 32 (addF32 old.sum.toNat new.sum.toNat)
      count := BitVec.ofNat 32 (min (old.count.toNat + new.count.toNat) 0xFFFFFFFF)
      anyNan := old.anyNan || new.anyNan
      anyNonf := old.anyNonf || new.anyNonf
      op := new.op, poison := false, valid := true }

/-- The two words of a summary register (Table 04-2). -/
def Summ.word (x : Summ) (w : Nat) : Nat :=
  if w = 0 then x.max.toNat + x.sum.toNat * 2 ^ 32
  else x.count.toNat + x.anyNan.toNat * 2 ^ 32 + x.anyNonf.toNat * 2 ^ 33 + x.seenRange.toNat * 2 ^ 34
    + x.seenInf.toNat * 2 ^ 35 + x.seenNan.toNat * 2 ^ 36 + x.op.toNat * 2 ^ 37 + x.poison.toNat * 2 ^ 38
    + x.valid.toNat * 2 ^ 39

/-- R100, Table 05-9: the condition of a summary branch. A comparison with NaN is false. -/
def Summ.branch (x : Summ) (cond : Nat) (ga : Nat) : Bool :=
  let gv := f32 (ga % 2 ^ 32)
  let gt (a : Val) := gv.lt a
  let le (a : Val) := !a.isNan && !gv.isNan && !gv.lt a
  match cond with
  | 0 => x.anyNonf
  | 1 => x.anyNan
  | 2 => x.seenRange || x.seenInf || x.seenNan
  | 3 => gt (f32 x.max.toNat)
  | 4 => le (f32 x.max.toNat)
  | 5 => gt (f32 x.sum.toNat)
  | 6 => le (f32 x.sum.toNat)
  | 7 => ga % 2 ^ 32 < x.count.toNat
  | 8 => x.count.toNat ≤ ga % 2 ^ 32
  | _ => false

/-- Draw of lane `l` (R40, R41); not looked at when rounding to nearest. -/
def laneDraw (sr : Bool) (key n l : Nat) : Nat := if sr then drawOf key n l else 0

/-- R31, R23, R78: a conversion that ve.cvt performs. `ts` is the per-tensor code of GS: between unscaled types it must be 0x7F
(R23). SCALE and SCALING where R78 gives them no meaning are refused as a form (log entry 96). -/
def cvtOk (src dst : Ty) (k : Scaling) (given : Bool) (ts : Nat) : Bool :=
  let base := directOk src dst
  if dst.scaled then base && scalingOk dst k 0x7F && (k != .tile || given) && (k != .tensor || !given)
  else if src.scaled then base && scalingOk src k 0x7F && !given
  else base && k == .tensor && !given && ts == 0x7F

/-- R78: the 512 source values of a ve.cvt. R78 places no source of 64 bits: an INT64 source, which Table 02-6 permits, is
the free values from index `free` on (log entry 73). -/
def cvtSources (src : Ty) (k : Scaling) (half ts free : Nat) (x : BitVec 16384) : List Val :=
  if src.bits = 64 then (List.range 512).map fun j => src.decode (Config.free (free + j)).toNat
  else if src.bits = 32 then (lanes32 x).map src.decode
  else if src.bits = 16 then (((lanes16 x).drop (512 * half)).take 512).map src.decode
  else
    let bs := vBytes x
    (unpack src.bits (bs.take 512) 512).mapIdx fun j c =>
      if src.scaled then
        decodeScaled src c (if k.len = 0 then ts else ((bs[1024 + j / k.len]?).getD 0).toNat)
      else src.decode c

/-- How many free values a vector slot takes (log entry 73). -/
def VeOp.freeUse : VeOp → Nat
  | .cvt _ _ _ _ _ _ _ source _ _ => if source.bits = 64 then 512 else 0
  | _ => 0

/-- Consecutive blocks of `b`, `n` of them. -/
def blocks {α : Type} (b : Nat) : Nat → List α → List (List α)
  | 0, _ => []
  | n + 1, l => l.take b :: blocks b n (l.drop b)

/-- A result of ve.cvt: the register bits to write, which of them, and the flags. -/
structure CvtOut where
  val : BitVec 16384
  mask : BitVec 16384
  flags : Cvt
deriving DecidableEq, Repr

/-- R78: results of a ve.cvt. `ds` are the draws, `gv` the lanes of the register of given scales, `p` the governing
predicate, `zero` its form. -/
def cvtResult (dst : Ty) (k : Scaling) (md : Mode) (half ts : Nat) (p : BitVec 1024) (zero : Bool)
    (vs : List Val) (ds : List Nat) (gv : Option (List Nat)) : CvtOut :=
  let narrow := dst.bits ≤ 8
  let xs := (vs.zip ds).mapIdx fun j x => if p.getLsbD j then x else (Val.fin false 0 0, x.2)
  let orF := fun (l : List (Nat × Cvt)) => l.foldl (fun f r => f.or r.2) Cvt.none
  if narrow && dst.scaled && k.blocky then
    let b := k.len
    let rs := (blocks b (512 / b) xs).mapIdx fun j blk =>
      match gv with
      | some g =>
        let c := (g[j * b]?).getD 0 % 256
        let r := convertBlockGiven dst c md blk
        (c, r.1, r.2)
      | none => convertBlockAuto dst md blk
    let codes := pack dst.bits (rs.flatMap fun r => r.2.1)
    let v := leNat codes + packNat 8 (rs.map (·.1)) * 2 ^ 8192
    { val := BitVec.ofNat 16384 v, mask := BitVec.allOnes 16384,
      flags := rs.foldl (fun f r => f.or r.2.2) Cvt.none }
  else
    let rs := xs.mapIdx fun j x =>
      if p.getLsbD j then
        (if dst.scaled then convertGiven dst false ts md x.2 x.1 else convert dst md x.2 x.1)
      else (0, Cvt.none)
    let codes := rs.map (·.1)
    if narrow then
      { val := BitVec.ofNat 16384 (packNat dst.bits codes), mask := BitVec.allOnes 16384, flags := orF rs }
    else if dst.bits = 16 then
      { val := BitVec.ofNat 16384 (packNat 16 codes * 2 ^ (8192 * half))
        mask := BitVec.ofNat 16384 ((writeMask 16 512 p zero).toNat % 2 ^ 8192 * 2 ^ (8192 * half))
        flags := orF rs }
    else
      { val := ofLanes 32 codes, mask := writeMask 32 512 p zero, flags := orF rs }

/-- R79: the scale code of a lane taken as amax; of a negative lane its magnitude (log entry 96). -/
def scodeLane (t : Ty) (x : Nat) : Nat := scaleCode t (f32 x).abs

/-- Byte `i` of a table image. -/
def imgByte (img : BitVec 33280) (i : Nat) : Nat := img.toNat / 2 ^ (8 * i) % 256

/-- 32-bit word at byte `i` of a table image. -/
def imgWord (img : BitVec 33280) (i : Nat) : Nat := img.toNat / 2 ^ (8 * i) % 2 ^ 32

/-- R84, Table 04-3: the header check of a table image, on its first line. -/
def headerOk (bs : List Byte) : Bool :=
  let b (i : Nat) := ((bs[i]?).getD 0).toNat
  let mode := b 2
  let par := b 3
  let sign := b 0x18
  decide (mode ≤ 3)
    && (match mode with
        | 0 => true
        | 3 => (par % 4 == 1 || par % 4 == 2) && (1 ≤ par / 4 % 4 && par / 4 % 4 ≤ 3) && decide (par / 16 = 0)
        | _ => par == 0)
    && (if mode = 2 ∨ mode = 3 then decide (sign ≤ 2) else sign == 0)
    && (List.range 39).all (fun i => b (0x19 + i) == 0)

/-- floor of `m · 2^e`. -/
def floorNat (m : Nat) (e : Int) : Nat := if 0 ≤ e then m * 2 ^ e.toNat else m / 2 ^ (-e).toNat

/-- floor of a finite value. -/
def floorInt (s : Bool) (m : Nat) (e : Int) : Int :=
  if s then (if 0 ≤ e then -((m * 2 ^ e.toNat : Nat) : Int) else -((m + 2 ^ (-e).toNat - 1) / 2 ^ (-e).toNat : Nat))
  else (floorNat m e : Int)

/-- R85: the cubic of segment `s` at `t`, in units of 2^-24, by three fused multiply-adds in FP32. -/
def segPoly (img : BitVec 33280) (s t : Nat) : Nat :=
  let c (i : Nat) := imgWord img (0x40 + 16 * s + 4 * i)
  let tv := ofInt t (-24)
  let f (a b : Nat) := toF32 (((f32 a).mul tv).add (f32 b))
  f (f (f (c 3) (c 2)) (c 1)) (c 0)

/-- R85: a tail of a LINEAR table. -/
def linTail (a b x : Nat) : Nat :=
  if (f32 a).isZero then b else toF32 (((f32 a).mul (f32 x)).add (f32 b))

/-- R86, Table 04-4: a tail of a LINEAR table at an infinity. -/
def linInf (a b : Nat) (neg : Bool) : Nat :=
  if (f32 a).isZero then b else if (f32 a).sign != neg then negInf32 else posInf32

/-- R85, R86: LINEAR. -/
def fnLinear (img : BitVec 33280) (x : Nat) : Nat :=
  let loA := imgWord img 8
  let loB := imgWord img 0xC
  let hiA := imgWord img 0x10
  let hiB := imgWord img 0x14
  match f32 x with
  | .nan => nan32
  | .inf false => linInf hiA hiB false
  | .inf true => linInf loA loB true
  | v =>
    match (v.add (f32 (imgWord img 4)).neg).scale (sext 8 (imgByte img 3)) with
    | .fin s m e =>
      if s && decide (m ≠ 0) then linTail loA loB x
      else
        let d := floorNat m (e + 24)
        if 256 * 2 ^ 24 ≤ d then linTail hiA hiB x else segPoly img (d / 2 ^ 24) (d % 2 ^ 24)
    | _ => nan32

/-- R85, R86: EXP2. -/
def fnExp2 (img : BitVec 33280) (x : Nat) : Nat :=
  match f32 x with
  | .nan => nan32
  | .inf false => posInf32
  | .inf true => 0
  | .fin s m e =>
    if m = 0 then 0x3F800000
    else if !(Val.fin s m e).lt (ofInt 128 0) then posInf32
    else if (Val.fin s m e).lt (ofInt (-150) 0) then 0
    else
      let y := floorInt s m (e + 32)
      let n := y.fdiv (2 ^ 32)
      let r := (y - n * 2 ^ 32).toNat
      toF32 ((f32 (segPoly img (r / 2 ^ 24) (r % 2 ^ 24))).scale n)

/-- The position of `m` within its binade in units of 2^-(24 + b): R85's split of LOG2 and POWER. -/
def binadePos (m b : Nat) : Nat := (m - 2 ^ Nat.log2 m) * 2 ^ (b + 24) / 2 ^ Nat.log2 m

/-- R85: LOG2 of a positive finite value. -/
def log2Pos (img : BitVec 33280) (m : Nat) (e : Int) : Nat :=
  let d := binadePos m 8
  toF32 ((ofInt (ilog2 m e) 0).add (f32 (segPoly img (d / 2 ^ 24) (d % 2 ^ 24))))

/-- R85: POWER of a positive finite value. -/
def powerPos (img : BitVec 33280) (m : Nat) (e : Int) : Nat :=
  let par := imgByte img 3
  let num := par / 4 % 4
  let k := ilog2 m e
  if par % 4 = 1 then
    let d := binadePos m 8
    toF32 ((f32 (segPoly img (d / 2 ^ 24) (d % 2 ^ 24))).scale (-(num * k)))
  else
    let d := binadePos m 7
    let h := k.fdiv 2
    let s := if k.emod 2 = 0 then d / 2 ^ 24 else 128 + d / 2 ^ 24
    toF32 ((f32 (segPoly img s (d % 2 ^ 24))).scale (-(num * h)))

/-- Sign change of an FP32 code; NaN stays canonical. -/
def negF32 (x : Nat) : Nat := UnOp.lane .negF32 x

/-- R86: LOG2 and POWER on negative inputs follow SIGN. -/
def bySign (sign : Nat) (y : Nat) : Nat :=
  if sign = 0 then nan32 else if sign = 1 then negF32 y else y

/-- R85, R86: LOG2. -/
def fnLog2 (img : BitVec 33280) (x : Nat) : Nat :=
  let sign := imgByte img 0x18
  match f32 x with
  | .nan => nan32
  | .inf false => posInf32
  | .inf true => bySign sign posInf32
  | .fin s m e =>
    if m = 0 then negInf32
    else if s then bySign sign (log2Pos img m e)
    else log2Pos img m e

/-- R85, R86: POWER. -/
def fnPower (img : BitVec 33280) (x : Nat) : Nat :=
  let sign := imgByte img 0x18
  match f32 x with
  | .nan => nan32
  | .inf false => 0
  | .inf true => if sign = 0 then nan32 else if sign = 1 then 0x80000000 else 0
  | .fin s m e =>
    if m = 0 then (if s && sign != 2 then negInf32 else posInf32)
    else if s then bySign sign (powerPos img m e)
    else powerPos img m e

/-- R85: a function table at an FP32 input. -/
def fnEval (img : BitVec 33280) (x : Nat) : Nat :=
  match imgByte img 2 with
  | 0 => fnLinear img x
  | 1 => fnExp2 img x
  | 2 => fnLog2 img x
  | _ => fnPower img x

end Sys2Proof.Machine
end

