-- ==== Sys2Proof/Machine/Timed.lean ====
section
/-! DEFINITION. The timed machinery of a core: landings, timed local-store touches and their checks, contract cycles
(R91, R104, R105, R108, R111, R395). -/

namespace Sys2Proof.Machine

open Sys2Proof.Num

/-- What the timed machinery reads of the rest of the module: core number, JOB_SEED and committed epoch of the
partition, logical ID, fabric time. -/
structure Env where
  c : Nat
  jobSeed : Nat
  fabId : Nat
  ft : Word
  committed : Word
  /-- index of the next free value (log entry 73) -/
  free : Nat
deriving DecidableEq, Repr



/-- A core at work on its local store, with the conditions met so far. -/
structure Bench where
  core : Core
  mem : Mem
  faults : List Flt
deriving DecidableEq, Repr

/-- Size of the populated local store (R103). -/
def lsTop : Nat := 0x300000

/-- Device address of local-store offset `off` of core `c` (Table 06-2). -/
def lsAddr (c off : Nat) : Nat := c * 0x400000 + off

/-- Bytes of a core's local store. -/
def lsRead (m : Mem) (c off n : Nat) : List Byte := m.bytes.getList 0 (lsAddr c off) n

/-- Poison marks of the whole 64-byte lines that a write of `n` bytes at `a` replaces, removed (R154). -/
def clearPoison (p : Tab Bool) (u a n : Nat) : Tab Bool :=
  p.filter fun e => !(decide (a ≤ e.1) && decide (e.1 + u ≤ a + n))

/-- Bytes written to a core's local store. -/
def lsWrite (m : Mem) (c off : Nat) (bs : List Byte) : Mem :=
  { m with bytes := m.bytes.setList 0 (lsAddr c off) bs,
           poison := clearPoison m.poison 64 (lsAddr c off) bs.length }

/-- R95: g0 reads as zero. -/
def gRead (k : Core) (r : Nat) : Word := if r = 0 then 0 else k.g.get 0 r

/-- A set of registers with one taken out, unless it is to stay. -/
def poisonLeft {w : Nat} (keep : Bool) (b : BitVec w) (r : Nat) : BitVec w := if keep then b else b &&& ~~~(BitVec.ofNat w (2 ^ r))

/-- R95: a write of g0 has no effect; a write clears the poison of its register, unless it is `keep`. -/
def gWrite (k : Core) (r : Nat) (v : Word) (keep : Bool := false) : Core :=
  if r = 0 then k
  else { k with g := k.g.set 0 r v, gPoison := poisonLeft keep k.gPoison r }

/-- R70: p0 reads as all ones. -/
def pRead (k : Core) (r : Nat) : BitVec 1024 := if r = 0 then BitVec.allOnes 1024 else k.p.get 0 r

/-- A vector register. -/
def vRead (k : Core) (r : Nat) : BitVec 16384 := k.v.get 0 r

/-- R71: a vector register takes the bits that `mask` names; its poison clears (R90). -/
def vWrite (k : Core) (r : Nat) (val mask : BitVec 16384) (keep : Bool := false) : Core :=
  { k with v := k.v.set 0 r ((vRead k r &&& ~~~mask) ||| (val &&& mask)),
           ve := { k.ve with vPoison := poisonLeft keep k.ve.vPoison r } }

/-- R70: a predicate register takes the bits that `mask` names; writes to p0 have no effect. -/
def pWrite (k : Core) (r : Nat) (val mask : BitVec 1024) (keep : Bool := false) : Core :=
  if r = 0 then k
  else { k with p := k.p.set 0 r ((pRead k r &&& ~~~mask) ||| (val &&& mask)),
                ve := { k.ve with pPoison := poisonLeft keep k.ve.pPoison r } }

/-- R58, R59: the sticky bits of ME_STATUS. -/
def meFlags (m : MeRegs) (f : AccFlag) : MeRegs :=
  { m with accRange := m.accRange || f.range, accInf := m.accInf || f.inf, accNan := m.accNan || f.nan }

/-- A descriptor read on its way keeps the draws that it took at issue (R106). -/
def Flight.seeded (f : Flight) : Flight :=
  match f.ev with
  | .mvGo m off d _ => { f with ev := .mvGo m off d true }
  | _ => f

/-- R42: step number and draw counter of every converting unit. -/
def seedAll (k : Core) (step : Word) : Core :=
  { k with ve := { k.ve with draw := { step := step, count := 0 } },
           mv := (k.mv.mod {} 0 fun m => { m with draw := { step := step, count := 0 } }).mod {} 1 fun m =>
             { m with draw := { step := step, count := 0 } }
           flights := k.flights.map Flight.seeded }

/-- A flight put in with the others. -/
def addFlight (k : Core) (f : Flight) : Core := { k with flights := k.flights ++ [f] }

/-- The flight that the same instruction goes on with `n` cycles later. -/
def Flight.after (f : Flight) (n : Nat) (ev : Ev) : Flight := { f with due := f.due + n, ev := ev }

/-- A load of stationary register `s` is in progress (R49). -/
def Core.statLoading (k : Core) (s : Nat) : Bool :=
  k.flights.any fun f => match f.ev with
    | .mmLd s' .. | .statReady s' _ => s' == s
    | _ => false

/-- A load of table `t` is in progress (R84). -/
def Core.tableLoading (k : Core) (t : Nat) : Bool :=
  k.flights.any fun f => match f.ev with
    | .veTld t' .. | .tableSwitch t' .. => t' == t
    | _ => false

/-- R84: table `t` is ready. -/
def Core.tableReady (k : Core) (t : Nat) : Bool := (k.tables.get {} t).ready && !k.tableLoading t

/-- An accumulator row written: its poison clears, unless the write came before the one that a squash discarded (R68). -/
def rowWrite (f : Flight) (acc : Tab AccRow) (row : Nat) (x : AccRow) : Tab AccRow :=
  acc.set {} row { x with poison := x.poison || (f.keep.getLsbD row && (acc.get {} row).poison) }

/-- R49, R73, R90: a landing takes effect. -/
def landEv (f : Flight) (k : Core) : Core :=
  match f.ev with
  | .landG r v => gWrite k r v (f.keep.getLsbD r)
  | .landV r val mask => vWrite k r val mask (f.keep.getLsbD r)
  | .landP r val mask => pWrite k r val mask (f.keep.getLsbD r)
  | .landS r x merge =>
    { k with sum := k.sum.mod {} r fun old => { landSumm old x merge with poison := f.keep.getLsbD r && old.poison } }
  | .landSeen r x y z =>
    { k with sum := k.sum.mod {} r fun o => { o with seenRange := o.seenRange || x, seenInf := o.seenInf || y,
                                                     seenNan := o.seenNan || z, poison := f.keep.getLsbD r && o.poison } }
  | .landExt b => { k with extBanks := b }
  | .landSeed st => seedAll k st
  | .zeroRows base rows i int =>
    let n := min 8 (rows - 8 * i)
    let k1 := { k with acc := (List.range n).foldl (fun (t : Tab AccRow) j =>
      rowWrite f t (base + 8 * i + j) { int := int }) k.acc }
    if 8 * (i + 1) < rows then addFlight k1 (f.after 1 (.zeroRows base rows (i + 1) int))
    else k1
  | .landRow row x => { k with acc := rowWrite f k.acc row x }
  | .landStream row s x ovr =>
    let r := passRow x (k.stat.get {} s).tile ovr (k.acc.get {} row)
    { k with acc := rowWrite f k.acc row r.1, me := { meFlags k.me r.2 with rows := k.me.rows + 1 } }
  | .statReady s t =>
    { k with stat := k.stat.mod {} s fun x =>
        { x with tile := t, loading := if k.statLoading s then x.loading else none, ready := !k.statLoading s } }
  | .tableSwitch t img sq =>
    { k with tables := k.tables.mod {} t fun x =>
        { image := img, ready := true, poison := sq || (f.keep.getLsbD t && x.poison) } }
  | _ => k

/-- A landing, as against a touch or a read of accumulator rows. -/
def Ev.lands : Ev → Bool
  | .landG .. | .landV .. | .landP .. | .landS .. | .landSeen .. | .landExt .. | .landSeed .. | .zeroRows .. | .landRow ..
  | .landStream .. | .statReady .. | .tableSwitch .. => true
  | _ => false

/-- The pair read of an mv.accst. -/
def Ev.pairRead : Ev → Bool
  | .accRead .. => true
  | _ => false

/-- A timed local-store touch. -/
def Ev.touches (e : Ev) : Bool := !e.lands && !e.pairRead

/-- R104, Table 05-10: the lines of a touch. -/
def touchLines (e : Ev) : List Nat :=
  match e with
  | .scLd _ off => linesOf off 8
  | .scSt off _ => linesOf off 8
  | .veLd _ off _ _ => linesOf off 2048
  | .veLdb _ off w _ _ => linesOf off (4 * (512 / w))
  | .veSt off data => linesOf off data.length
  | .veTld _ off k _ _ => [off / 64 + k]
  | .mmLd _ t addr stride scale j =>
    (linesOf (addr + j * stride) (t.cls.rowBytes t.ty)
      ++ linesOf (scale + scaleOff t.cls.kt t.scaling j) (scaleBytes t.cls.kt t.scaling)).eraseDups
  | .mmStream o i q _ =>
    let a := o.addr + i * o.stride
    if o.cls.wide then linesOf (a + 128 * q) 128
    else (linesOf a (o.cls.rowBytes o.ty)
      ++ linesOf (o.scale + scaleOff o.cls.kt o.scaling i) (scaleBytes o.cls.kt o.scaling)).eraseDups
  | .accLd _ _ addr i form =>
    if form = .raw then linesOf (addr + i * 2048) 2048 else linesOf (addr + i * 1024) 1024
  | .mvGo _ off .. => linesOf off 128
  | .accWrite addr stride lo hi =>
    (linesOf addr lo.length ++ linesOf (addr + stride) hi.length).eraseDups
  | _ => []

/-- A touch that writes the local store. -/
def Ev.stores : Ev → Bool
  | .scSt .. | .veSt .. | .accWrite .. => true
  | _ => false

/-- R102: the tag of provisional work; committed work has none. -/
def provTag (e : Env) (tag : Word) : Option Word := if e.committed.toNat < tag.toNat then some tag else none

/-- R40: the key of converting unit `engine` of the core (0 VE, 1 mover 0, 2 mover 1). -/
def unitKey (e : Env) (d : Draw) (engine : Nat) : Nat := drawKey e.jobSeed d.step.toNat e.fabId e.c engine

/-- R43: the draw state as it stood at the first conversion of provisional work. -/
def saveDraw (old : Option DrawSave) (prov : Option Word) (d : Draw) : Option DrawSave :=
  match prov with
  | none => old
  | some t =>
    match old with
    | some s => if s.tag = t then old else some { tag := t, step := d.step, count := d.count }
    | none => some { tag := t, step := d.step, count := d.count }

/-- R41: the draw counter after `n` values, wrapping at 2^48. -/
def takeDraws (d : Draw) (n : Nat) : Draw := { d with count := (d.count + n) % 2 ^ 48 }

/-- Banks that active descriptors reserve (R108, Table 05-22). -/
def reservedOf (m : Mover) : BitVec 64 := m.active.foldl (fun b a => b ||| a.d.mask) 0

def reserved (k : Core) : BitVec 64 := reservedOf (k.mv.get {} 0) ||| reservedOf (k.mv.get {} 1)

/-- R110, R121: the mover refuses a descriptor. -/
def goRefused (e : Env) (m off : Nat) : Flt :=
  { code := Err.malformedDescriptor, addr := lsAddr e.c off, slot := 1, mover := some m }

/-- R395, R106: the descriptor read of mv.go. Its draws are those of its issue. -/
def goTouch (e : Env) (f : Flight) (k : Core) (m off : Nat) (draw : Draw) (seeded : Bool) (bs : List Byte) : Core × List Flt :=
  match readDesc bs with
  | some d =>
    if d.ok then
      let mv := k.mv.get {} m
      let conv := d.converts
      let a : Active := {
        d := d, seq := mv.seq, tag := f.tag, stream := f.stream
        key := unitKey e draw (1 + m), draw := draw.count }
      let mv' := { mv with active := mv.active ++ [a], seq := (mv.seq + 1) % 2 ^ 32,
                           draw := if seeded then mv.draw else takeDraws mv.draw d.draws,
                           save := if conv then saveDraw mv.save (provTag e f.tag) draw else mv.save }
      ({ k with mv := k.mv.set {} m mv' }, [])
    else (k, [goRefused e m off])
  | none => (k, [goRefused e m off])

/-- R104, R395: a touch performed on the contents of its lines. -/
def doTouch (e : Env) (f : Flight) (b : Bench) : Bench :=
  let k := b.core
  let rd (off n : Nat) := lsRead b.mem e.c off n
  match f.ev with
  | .scLd gd off =>
    { b with core := addFlight k (f.after 7 (.landG gd (BitVec.ofNat 64 (leNat (rd off 8))))) }
  | .scSt off v => { b with mem := lsWrite b.mem e.c off (leBytes v.toNat 8) }
  | .veLd vd off mask keep =>
    { b with core := addFlight k (f.after 7 (.landV vd (BitVec.ofNat 16384 (leNat (rd off 2048)) &&& mask) keep)) }
  | .veLdb vd off w mask keep =>
    let vs := unpack 32 (rd off (4 * (512 / w))) (512 / w)
    let x := ofLanes 32 ((List.range 512).map fun l => (vs[l / w]?).getD 0)
    { b with core := addFlight k (f.after 7 (.landV vd (x &&& mask) keep)) }
  | .veSt off data => { b with mem := lsWrite b.mem e.c off data }
  | .veTld t off j img sq =>
    let line := rd (off + 64 * j) 64
    if j = 0 ∧ !headerOk line then
      { b with faults := b.faults ++ [{ code := 0x0202, addr := lsAddr e.c off, slot := 3 }] }
    else if j < 64 then
      { b with core := addFlight k (f.after 1 (.veTld t off (j + 1) (img ++ line) sq)) }
    else
      { b with core := addFlight k (f.after 5 (.tableSwitch t (BitVec.ofNat 33280 (leNat (img ++ line))) sq)) }
  | .mmLd s t addr stride scale j =>
    let t' := { t with cols := t.cols.set [] j (rd (addr + j * stride) (t.cls.rowBytes t.ty)),
                       scales := t.scales.set [] j
                         (rd (scale + scaleOff t.cls.kt t.scaling j) (scaleBytes t.cls.kt t.scaling)) }
    let k1 := { k with stat := k.stat.mod {} s fun x => { x with loading := some t' } }
    if j < 255 then
      { b with core := addFlight k1 (f.after 1 (.mmLd s t' addr stride scale (j + 1))) }
    else { b with core := addFlight k1 (f.after 4 (.statReady s t')) }
  | .mmStream o i q part =>
    let a := o.addr + i * o.stride
    let scales := if o.scaling.len = 0 then [BitVec.ofNat 8 o.scale]
      else rd (o.scale + scaleOff o.cls.kt o.scaling i) (scaleBytes o.cls.kt o.scaling)
    let bytes := if o.cls.wide then part ++ rd (a + 128 * q) 128 else rd a (o.cls.rowBytes o.ty)
    let last := !o.cls.wide || q == 3
    let k1 := if last then
        addFlight k (f.after 19 (.landStream (o.base + i) o.s (RowIn.mk o.cls o.ty o.scaling bytes scales)
          o.ovr))
      else k
    if !last then
      { b with core := addFlight k1 (f.after 1 (.mmStream o i (q + 1) bytes)) }
    else if i + 1 < o.rows then
      { b with core := addFlight k1 (f.after 1 (.mmStream o (i + 1) 0 [])) }
    else { b with core := k1 }
  | .accLd base rows addr i form =>
    let w := if form = .raw then 2048 else 1024
    let x := accImage form (rd (addr + i * w) w)
    let k1 := addFlight { k with rowMode := k.rowMode.set false (base + i) x.int }
      (f.after 19 (.landRow (base + i) x))
    if i + 1 < rows then
      { b with core := addFlight k1 (f.after 1 (.accLd base rows addr (i + 1) form)) }
    else { b with core := k1 }
  | .mvGo m off d sd =>
    let r := goTouch e f k m off d sd (rd off 128)
    { b with core := r.1, faults := b.faults ++ r.2 }
  | .accWrite addr stride lo hi =>
    { b with mem := lsWrite (lsWrite b.mem e.c addr lo) e.c (addr + stride) hi }
  | _ => b

/-- R64, R65, R111: image of one accumulator row in a form, with the flags raised. -/
def accForm (form : Form) (md : Mode) (draws : Nat → Nat) (r : AccRow) : List Byte × Cvt :=
  match form with
  | .raw => (rawImage r, {})
  | .fp32 =>
    let xs := (accEntries r).mapIdx fun j x => readF32 r.int md (draws j) x
    (pack 32 (xs.map (·.1)), xs.foldl (fun f x => f.or x.2) {})
  | .int32 =>
    let xs := (accEntries r).mapIdx fun j x => readI32 r.int md (draws j) x
    (pack 32 (xs.map (·.1)), xs.foldl (fun f x => f.or x.2) {})

/-- R111: a pair read of mv.accst, judged for POISON as it is read. -/
def doPairRead (e : Env) (f : Flight) (b : Bench) : Bench :=
  match f.ev with
  | .accRead m addr stride row pairs i form mode =>
    let k := b.core
    let lo := k.acc.get {} (row + 2 * i)
    let hi := k.acc.get {} (row + 2 * i + 1)
    if lo.poison || hi.poison then
      { b with faults := b.faults ++ [{ code := Err.poisonedME, addr := f.bundle, slot := 1 }] }
    else
      let mv := k.mv.get {} m
      let md := Mode.ofCode mode
      let conv := form != .raw
      let key := unitKey e mv.draw (1 + m)
      let n := mv.draw.count
      let a := accForm form md (fun j => laneDraw md.sr key n j) lo
      let c := accForm form md (fun j => laneDraw md.sr key n (256 + j)) hi
      let mv' := if conv then
          { mv with cvt := (mv.cvt.or a.2).or c.2, draw := takeDraws mv.draw (if md.sr then 1 else 0),
                    save := saveDraw mv.save (provTag e f.tag) mv.draw }
        else mv
      let k1 := addFlight { k with mv := k.mv.set {} m mv' }
        (f.after 7 (.accWrite (addr + 2 * i * stride) stride a.1 c.1))
      if i + 1 < pairs then
        { b with core := addFlight k1 (f.after 1 (.accRead m addr stride row pairs (i + 1) form mode)) }
      else { b with core := k1 }
  | _ => b

/-- No bank twice in a list of lines. -/
def banksDistinct (ls : List Nat) : Bool := (ls.map bankOf).eraseDups.length == ls.length

/-- R105, R108, R154, R395: the conditions that a touch meets. `used` are the banks of the lower slots, `resv` the
reserved and opened banks, `bad` the lines found uncorrectable. -/
def touchFaults (c : Nat) (used : List Nat) (resv : BitVec 64) (bad : List Nat) (m : Mem) (f : Flight) : List Flt :=
  let ls := touchLines f.ev
  let conf := ls.filter fun l => used.contains (bankOf l)
  let res := ls.filter fun l => resv.getLsbD (bankOf l)
  let unc := ls.filter fun l => bad.contains l || (!f.ev.stores && m.poison.get false (lsAddr c (64 * l)))
  let one (code : Code) (xs : List Nat) : List Flt :=
    match xs with
    | [] => []
    | l :: _ => [{ code := code, addr := lsAddr c (64 * l), slot := f.slot, store := f.ev.stores }]
  (if banksDistinct ls then one Err.bankConflict conf else one Err.bankConflict ls)
    ++ one Err.bankReserved res ++ one Err.uncorrectable unc

/-- R102: whose work the conditions are that the flight has met. -/
def Bench.owned (e : Env) (f : Flight) (b : Bench) (b' : Bench) : Bench :=
  { b' with faults := b.faults ++ (b'.faults.drop b.faults.length).map fun x =>
      { x with prov := provTag e f.tag, stream := f.stream } }

/-- R105: the touches of one contract cycle, in the order of their slots. A refused touch is not performed. -/
def doTouches (e : Env) (resv : BitVec 64) (bad : List Nat) : List Flight → List Nat → Bench → Bench
  | [], _, b => b
  | f :: r, used, b =>
    let fs := touchFaults e.c used resv bad b.mem f
    let used' := used ++ (touchLines f.ev).map bankOf
    let mem' := { b.mem with poison := (touchLines f.ev).foldl (fun (p : Tab Bool) l =>
      if bad.contains l then p.set false (lsAddr e.c (64 * l)) true else p) b.mem.poison }
    let b' := if fs.isEmpty then doTouch e f b else { b with faults := b.faults ++ fs, mem := mem' }
    doTouches e resv bad r used' (b.owned e f b')

/-- Touches ordered by slot, those of one slot by issue (Table 05-13). -/
def touchOrder (fs : List Flight) : List Flight :=
  sortBy (fun a b => decide (a.slot < b.slot) || (a.slot == b.slot && decide (a.no ≤ b.no))) fs

/-- Landings due by cycle `t`, in order of cycle, then of issue. -/
def landsBy (k : Core) (t : Nat) : List Flight :=
  sortBy (fun a b => decide (a.due < b.due) || (a.due == b.due && decide (a.no ≤ b.no)))
    (k.flights.filter fun f => f.ev.lands && decide (f.due ≤ t))

/-- All landings due by cycle `t`. A landing of several steps goes on through the later cycles up to `t`. -/
def landAll : Nat → Nat → Core → Core
  | 0, _, k => k
  | n + 1, t, k =>
    match landsBy k t with
    | [] => k
    | f :: _ => landAll n t (landEv f { k with flights := k.flights.erase f })

/-- The flights of one kind that are due by cycle `t` taken out. -/
def takeDue (p : Ev → Bool) (t : Nat) (k : Core) : List Flight × Core :=
  (k.flights.filter fun f => p f.ev && decide (f.due ≤ t),
    { k with flights := k.flights.filter fun f => !(p f.ev && decide (f.due ≤ t)) })

/-- R395: the touches of contract cycle `t`. -/
def touchesAt (e : Env) (bad : List Nat) (t : Nat) (b : Bench) : Bench :=
  let resv := reserved b.core ||| b.core.extBanks
  let x := takeDue Ev.touches t b.core
  doTouches e resv bad (touchOrder x.1) [] { b with core := x.2 }

/-- R111: the pair reads of contract cycle `t`. -/
def pairsAt (e : Env) (t : Nat) (b : Bench) : Bench :=
  let x := takeDue Ev.pairRead t b.core
  x.1.foldl (fun y f => y.owned e f (doPairRead e f y)) { b with core := x.2 }

/-- One contract cycle `t`: landings, then touches, then pair reads (R395). A descriptor takes its draws before a pair read
of its cycle does, since it issued earlier (R106). -/
def cycleAt (e : Env) (bad : List Nat) (t : Nat) (b : Bench) : Bench :=
  pairsAt e t (touchesAt e bad t { b with core := landAll (4 * b.core.flights.length + 200) t b.core })

/-- The earliest cycle in which something of `p` is due. -/
def nextDue (k : Core) (p : Flight → Bool) : Option Nat :=
  (k.flights.filter p).foldl (fun m f => match m with
    | none => some f.due
    | some d => some (min d f.due)) none

/-- Cycles up to and including `t`, `n` events at most. -/
def settle : Nat → Env → List Nat → Nat → Bench → Bench
  | 0, _, _, _, b => b
  | n + 1, e, bad, t, b =>
    match nextDue b.core (fun _ => true) with
    | none => b
    | some d => if d ≤ t then settle n e bad t (cycleAt e bad d b) else b

end Sys2Proof.Machine
end

