-- ==== Sys2Proof/Machine/Issue.lean ====
section
/-! DEFINITION. Issue of the four slots of a bundle (R93 to R100, R106, R111, R48 to R51, R72 to R82, R84).
Each slot reads its sources from what has landed; results land through flights. -/

namespace Sys2Proof.Machine

open Sys2Proof.Num

/-- What a slot asks of the rest of the module (R96, R112, R117). -/
inductive Ext
  | wait (counter : Nat) (value : Word)
  | waitt (time : Word)
  | sig (counter : Nat) (amount : Word)
  | squash (epoch : Word)
deriving DecidableEq, Repr

/-- The bundle being issued: where it stands and for what launch. -/
structure Site where
  e : Env
  tag : Word
  bundle : Nat
  /-- BUNDLES of the launch, and offset of the bundle -/
  count : Nat
  pc : Nat
  /-- command stream of the launch -/
  stream : Nat := 64
deriving DecidableEq, Repr

/-- A core after some of the slots. -/
structure Iss where
  core : Core
  faults : List Flt := []
  ext : List Ext := []
deriving DecidableEq, Repr

/-- A condition that is found as the bundle issues is met by its launch's work (R102). -/
def Site.own (x : Site) (f : Flt) : Flt := { f with prov := provTag x.e x.tag, stream := x.stream }

/-- A condition whose logged address is the bundle's (Table 05-13). -/
def Site.flt (x : Site) (slot : Nat) (code : Code) : Flt := { code := code, addr := x.bundle, slot := slot }

/-- The tag under which written state is recorded for a squash (R118). -/
def Site.prov (x : Site) : Option Word := provTag x.e x.tag

/-- Something put in flight `n` cycles after issue. -/
def fly (x : Site) (slot n : Nat) (ev : Ev) (k : Core) : Core :=
  addFlight k { due := k.cycle + n, slot := slot, no := k.issued, tag := x.tag, bundle := x.bundle, ev := ev,
                stream := x.stream }

/-- The trace of the tag that is provisional now; a new tag starts afresh. -/
def Trace.under (t : Trace) (tag : Option Word) : Trace := if t.tag = tag then t else { tag := tag }

/-- State written by provisional work enters the trace; state written by committed work leaves it (R118). -/
def note (x : Site) (k : Core) (put : Trace → Bool → Trace) : Core :=
  match x.prov with
  | some t => { k with trace := put (k.trace.under (some t)) true }
  | none => { k with trace := put k.trace false }

/-- Bit `r` of a set put in or taken out. -/
def setBit {w : Nat} (b : BitVec w) (r : Nat) (on : Bool) : BitVec w :=
  if on then b ||| BitVec.ofNat w (2 ^ r) else b &&& ~~~(BitVec.ofNat w (2 ^ r))

def noteG (x : Site) (r : Nat) (k : Core) : Core :=
  if r = 0 then k else note x k fun t on => { t with g := setBit t.g r on }
def noteV (x : Site) (r : Nat) (k : Core) : Core := note x k fun t on => { t with v := setBit t.v r on }
def noteP (x : Site) (r : Nat) (k : Core) : Core :=
  if r = 0 then k else note x k fun t on => { t with p := setBit t.p r on }
def noteS (x : Site) (r : Nat) (k : Core) : Core := note x k fun t on => { t with s := setBit t.s r on }
def noteT (x : Site) (r : Nat) (k : Core) : Core := note x k fun t on => { t with t := setBit t.t r on }
def noteStat (x : Site) (r : Nat) (k : Core) : Core := note x k fun t on => { t with stat := setBit t.stat r on }
def noteRows (x : Site) (base n : Nat) (k : Core) : Core :=
  note x k fun t on => { t with rows := (List.range n).foldl (fun b i => setBit b (base + i) on) t.rows }

/-- R95: a write of a general register lands `n` cycles on. -/
def flyG (x : Site) (r n : Nat) (v : Word) (k : Core) : Core :=
  if r = 0 then k
  else fly x 0 n (.landG r v) (noteG x r { k with gDue := k.gDue.set 0 r (k.cycle + n) })

/-- R95, R73: writes to one register land in issue order and in different cycles. -/
def orderOk (due : Tab Nat) (r t : Nat) : Bool := due.get 0 r < t

/-- R118: a general register that is not poisoned. -/
def gOk (k : Core) (r : Nat) : Bool := !k.gPoison.getLsbD r

/-- Conditions with the codes given that hold. -/
def errsOf (x : Site) (slot : Nat) (l : List (Bool × Code)) : List Flt :=
  (l.filter (·.1)).map fun p => x.flt slot p.2

/-- A slot that meets conditions does not execute; else `k'` stands. -/
def commitSlot (i : Iss) (errs : List Flt) (k' : Core) (ext : List Ext := []) : Iss :=
  if errs.isEmpty then { core := { k' with issued := k'.issued + 1 }, faults := i.faults, ext := i.ext ++ ext }
  else { core := { i.core with issued := i.core.issued + 1 }, faults := i.faults ++ errs, ext := i.ext }

/-- Table 05-4: three-register operations. -/
def AluOp.eval (op : AluOp) (a b : Word) : Word :=
  match op with
  | .add => a + b
  | .sub => a - b
  | .and => a &&& b
  | .or => a ||| b
  | .xor => a ^^^ b
  | .shl => a <<< (b.toNat % 64)
  | .shr => a >>> (b.toNat % 64)
  | .sra => a.sshiftRight (b.toNat % 64)
  | .mul => a * b
  | .cmpeq => if a = b then 1 else 0
  | .cmplt => if a.slt b then 1 else 0
  | .cmpltu => if a.ult b then 1 else 0

/-- Table 05-4: cycles to the result. -/
def AluOp.lat : AluOp → Nat
  | .mul => 3
  | _ => 1

/-- R99: offset of a branch target within the block, where it lies within. -/
def brTarget (x : Site) (imm : BitVec 38) : Option Nat :=
  let t : Int := (x.pc : Int) + imm.toInt
  if 0 ≤ t ∧ t < (x.count : Int) then some t.toNat else none

/-- R98, R99: a branch issued in slot 0, taken or not. -/
def issueBranch (x : Site) (i : Iss) (more : List (Bool × Code)) (taken : Bool) (imm : BitVec 38)
    (after : Core → Core) : Iss :=
  let k := i.core
  let t := brTarget x imm
  let errs := errsOf x 0 (more ++ [(k.branch.isSome, Err.delaySlot), (t.isNone, Err.branchRange)])
  let tgt := if taken then t.getD 0 else x.pc + 4
  commitSlot i errs (after { k with branch := some { left := 3, target := some tgt } })

/-- R97: a local-store offset of sc.ld or sc.st. -/
def scOff (k : Core) (ga : G) (imm : BitVec 38) : Nat := (gRead k ga.toNat + imm.signExtend 64).toNat
def scOffOk (off : Nat) : Bool := off % 8 == 0 && decide (off + 8 ≤ lsTop)

/-- Table 05-4: the scalar slot. -/
def issueSc (x : Site) (op : ScOp) (i : Iss) : Iss :=
  let k := i.core
  let t := k.cycle
  let pz (rs : List G) : Bool × Code := (rs.any fun r => !gOk k r.toNat, Err.poisonedReg)
  let wo (gd : G) (n : Nat) : Bool × Code := (gd.toNat != 0 && !orderOk k.gDue gd.toNat (t + n), Err.writeOrder)
  let put (gd : G) (n : Nat) (srcs : List G) (v : Word) : Iss :=
    commitSlot i (errsOf x 0 [pz srcs, wo gd n]) (flyG x gd.toNat n v k)
  match op with
  | .nop => i
  | .alu op gd ga gb => put gd op.lat [ga, gb] (op.eval (gRead k ga.toNat) (gRead k gb.toNat))
  | .addi gd ga imm => put gd 1 [ga] (gRead k ga.toNat + imm.signExtend 64)
  | .movhi gd ga imm =>
    put gd 1 [ga] (((gRead k ga.toNat) &&& 0x3FFFFFFFFF#64) ||| (imm.setWidth 64 <<< 38))
  | .ld gd ga imm =>
    let off := scOff k ga imm
    let errs := errsOf x 0 [pz [ga], wo gd 8]
      ++ (if scOffOk off then [] else [{ code := Err.lsRange, addr := off, slot := 0 }])
    commitSlot i errs (fly x 0 1 (.scLd gd.toNat off)
      (noteG x gd.toNat { k with gDue := if gd.toNat = 0 then k.gDue else k.gDue.set 0 gd.toNat (t + 8) }))
  | .st ga gb imm =>
    let off := scOff k ga imm
    let errs := errsOf x 0 [pz [ga, gb]]
      ++ (if scOffOk off then [] else [{ code := Err.lsRange, addr := off, slot := 0 }])
    commitSlot i errs (fly x 0 5 (.scSt off (gRead k gb.toNat)) k)
  | .br imm => issueBranch x i [] true imm id
  | .brnz ga imm => issueBranch x i [pz [ga]] (gRead k ga.toNat != 0) imm id
  | .brz ga imm => issueBranch x i [pz [ga]] (gRead k ga.toNat == 0) imm id
  | .loop ga imm =>
    let v := gRead k ga.toNat - 1
    issueBranch x i [pz [ga], wo ga 1] (v != 0) imm (flyG x ga.toNat 1 v)
  | .brsum ga sk cond imm =>
    let sm := k.sum.get {} sk.toNat
    issueBranch x i [pz [ga], (sm.poison, 0x0205)] (sm.branch cond.val (gRead k ga.toNat).toNat) imm id
  | .done =>
    commitSlot i (errsOf x 0 [(k.branch.isSome, Err.delaySlot)])
      { k with branch := some { left := 3, target := none } }
  | .rdsum gd sk w =>
    let sm := k.sum.get {} sk.toNat
    commitSlot i (errsOf x 0 [(sm.poison, 0x0205), wo gd 2])
      (flyG x gd.toNat 2 (BitVec.ofNat 64 (sm.word w.toNat)) k)
  | .wait ga gb =>
    commitSlot i (errsOf x 0 [pz [ga, gb]]) k
      [.wait ((gRead k ga.toNat).toNat % 65536) (gRead k gb.toNat)]
  | .sig ga gb =>
    commitSlot i (errsOf x 0 [pz [ga, gb]]) k
      [.sig ((gRead k ga.toNat).toNat % 65536) (gRead k gb.toNat)]
  | .waitt ga => commitSlot i (errsOf x 0 [pz [ga]]) k [.waitt (gRead k ga.toNat)]
  | .ftime gd => commitSlot i (errsOf x 0 [wo gd 2]) (flyG x gd.toNat 2 x.e.ft k)
  | .seed ga => commitSlot i (errsOf x 0 [pz [ga]]) (fly x 0 2 (.landSeed (gRead k ga.toNat)) k)
  | .squash ga =>
    let e := gRead k ga.toNat
    let ok := x.prov.isNone && e == x.e.committed + 1
    commitSlot i (errsOf x 0 [pz [ga], (!ok, Err.squashEpoch)]) k [.squash e]
  | .extb ga => commitSlot i (errsOf x 0 [pz [ga]]) (fly x 0 2 (.landExt (gRead k ga.toNat)) k)

/-- Active descriptors of mover `m`, with those whose mv.go is on its way (R106). -/
def moverLoad (k : Core) (m : Nat) : Nat :=
  (k.mv.get {} m).active.length
    + (k.flights.filter fun f => match f.ev with
        | .mvGo m' .. => m' == m
        | _ => false).length

/-- Bytes of a row in a form (R111). -/
def Form.rowBytes : Form → Nat
  | .raw => 2048
  | _ => 1024

/-- R106, R111: the move slot. -/
def issueMv (x : Site) (op : MvOp) (i : Iss) : Iss :=
  let k := i.core
  let t := k.cycle
  match op with
  | .nop => i
  | .go m ga =>
    let off := (gRead k ga.toNat).toNat
    let errs := errsOf x 1 [(!gOk k ga.toNat, Err.poisonedReg), (decide (16 ≤ moverLoad k m.toNat), Err.queueFull)]
      ++ (if off % 128 = 0 ∧ off ≤ 0x2FFF80 then [] else [{ code := Err.lsRange, addr := off, slot := 1 }])
    commitSlot i errs (fly x 1 1 (.mvGo m.toNat off (k.mv.get {} m.toNat).draw false) k)
  | .accst m ga gb row pairs form mode =>
    let addr := (gRead k ga.toNat).toNat
    let stride := (gRead k gb.toNat).toNat
    let n := pairs.toNat + 1
    let errs := errsOf x 1 [(!gOk k ga.toNat || !gOk k gb.toNat, Err.poisonedReg),
        (row.toNat % 2 == 1 || decide (1023 < row.toNat + 2 * n - 1), 0x0103),
        (decide (t < k.port.accRead), Err.portBusy)]
      ++ (if addr % 64 = 0 ∧ stride % 64 = 0 ∧ addr + (2 * n - 1) * stride + form.rowBytes ≤ lsTop
          then [] else [{ code := Err.lsRange, addr := addr, slot := 1 }])
    commitSlot i errs (fly x 1 0 (.accRead m.toNat addr stride row.toNat n 0 form mode.toNat)
      { k with port := { k.port with accRead := t + n } })

/-- R46: the first byte at fault of `n` vectors of `len` bytes, `stride` apart, that must be 64-byte aligned and lie
in the populated local store. -/
def vecFault (addr stride n len : Nat) : Option Nat :=
  if addr % 64 ≠ 0 then some addr
  else if stride % 64 ≠ 0 then some (addr + stride)
  else if lsTop < addr + (n - 1) * stride + len then
    some (if lsTop < addr + len ∨ stride = 0 then max addr lsTop
      else
        let j := (lsTop - addr - len) / stride + 1
        max (addr + j * stride) lsTop)
  else none

/-- R46: the first byte at fault of a scale array of `n` bytes. -/
def scaleFault (k : Scaling) (addr n : Nat) : Option Nat :=
  if k.len = 0 then none
  else if addr % 8 ≠ 0 then some addr
  else if lsTop < addr + n then some (max addr lsTop)
  else none

/-- Table 03-16, R67: OPERAND_RANGE at the first faulty operand or scale byte. -/
def rangeErr (c : Nat) (a b : Option Nat) : List Flt :=
  match a, b with
  | some p, _ => [{ code := 0x0104, addr := lsAddr c p, slot := 2 }]
  | none, some p => [{ code := 0x0104, addr := lsAddr c p, slot := 2 }]
  | none, none => []

/-- Rows of a stream instruction in the mode and poison state that issued instructions leave (R60, R68). There are 1,024. -/
def anyRow (base n : Nat) (f : Nat → Bool) : Bool := (List.range n).any fun i => decide (base + i < 1024) && f (base + i)

/-- R48 to R51, R60, R67: the matrix slot. -/
def issueMm (x : Site) (op : MmOp) (i : Iss) : Iss :=
  let k := i.core
  let t := k.cycle
  let gv (r : G) : Nat := (gRead k r.toNat).toNat
  let pz (rs : List G) : Bool × Code := (rs.any fun r => !gOk k r.toNat, Err.poisonedReg)
  match op with
  | .nop => i
  | .ld cls s ga gb gc ty sc =>
    let wt := cls.ty ty.toNat
    let k3 := Scaling.ofCode sc.toNat
    let addr := gv ga
    let stride := gv gb
    let scale := gv gc
    let tile : Tile := { cls := cls, ty := wt, scaling := k3, tscale := scale % 256 }
    let nsc := if k3 = .tile then 8 * (cls.kt / 32) else 256 * scaleBytes cls.kt k3
    let errs := errsOf x 2 [pz [ga, gb, gc], (decide (t < k.statUse.get 0 s.toNat), 0x0101),
        (!(cls.admits wt && scalingOk wt k3 (scale % 256)), 0x0102), (decide (t < k.port.load), Err.portBusy)]
      ++ rangeErr x.e.c (vecFault addr stride 256 (cls.rowBytes wt)) (scaleFault k3 scale nsc)
    let k1 := { k with
      port := { k.port with load := t + 256 }
      stat := k.stat.mod {} s.toNat fun y => { y with ready := false, poison := false, loading := some tile } }
    commitSlot i errs (fly x 2 1 (.mmLd s.toNat tile addr stride scale 0) (noteStat x s.toNat k1))
  | .stream cls s base rows ga gb gc ty sc ovr =>
    let st := k.stat.get {} s.toNat
    let at' := cls.ty ty.toNat
    let k3 := Scaling.ofCode sc.toNat
    let n := rows.toNat + 1
    let isOvr := ovr == 1
    let addr := gv ga
    let stride := gv gb
    let scale := gv gc
    let nsc := if k3 = .tile then (n + 31) / 32 * (cls.kt / 32) else n * scaleBytes cls.kt k3
    let fits := base.toNat + n ≤ 1024
    let int := cls == .i8
    let errs := errsOf x 2 [pz [ga, gb, gc],
        (!st.ready, 0x0107),
        (!(cls.admits at' && scalingOk at' k3 (scale % 256))
          || (st.ready && !(st.tile.cls == cls && cls.pairOk at' st.tile.ty)), 0x0102),
        (!fits, 0x0103),
        (!isOvr && anyRow base.toNat n (fun r => k.rowMode.get false r != int), 0x0105),
        (st.poison || (!isOvr && anyRow base.toNat n (fun r => k.rowPoison.get false r)), 0x0106),
        (decide (t < k.port.stream), Err.portBusy)]
      ++ rangeErr x.e.c (vecFault addr stride n (cls.rowBytes at')) (scaleFault k3 scale nsc)
    let busy := if cls.wide then 4 * n else n
    let o : StreamOp := { cls := cls, s := s.toNat, base := base.toNat, rows := n, addr := addr, stride := stride,
                          ty := at', scaling := k3, scale := if k3.len = 0 then scale % 256 else scale, ovr := isOvr }
    let k1 := { k with
      port := { k.port with stream := t + busy }
      statUse := k.statUse.set 0 s.toNat (t + busy)
      rowMode := if isOvr then (List.range n).foldl (fun m j => m.set false (base.toNat + j) int) k.rowMode
        else k.rowMode
      rowPoison := if isOvr then k.rowPoison.clearRange base.toNat (base.toNat + n) else k.rowPoison }
    commitSlot i errs (fly x 2 1 (.mmStream o 0 0 []) (if isOvr || x.prov.isSome then noteRows x base.toNat n k1 else k1))
  | .zero base rows int =>
    let n := rows.toNat + 1
    let errs := errsOf x 2 [(decide (1024 < base.toNat + n), 0x0103), (decide (t < k.port.stream), Err.portBusy)]
    let k1 := { k with
      port := { k.port with stream := t + (n + 7) / 8 }
      rowMode := (List.range n).foldl (fun m j => m.set false (base.toNat + j) (int == 1)) k.rowMode
      rowPoison := k.rowPoison.clearRange base.toNat (base.toNat + n) }
    commitSlot i errs (fly x 2 20 (.zeroRows base.toNat n 0 (int == 1)) (noteRows x base.toNat n k1))
  | .accld base rows ga form =>
    let n := rows.toNat + 1
    let addr := gv ga
    let errs := errsOf x 2 [pz [ga], (decide (1024 < base.toNat + n), 0x0103),
        (decide (t < k.port.stream), Err.portBusy)]
      ++ rangeErr x.e.c (vecFault addr form.rowBytes n form.rowBytes) none
    let mode := fun (m : Tab Bool) => if form = .raw then m
      else (List.range n).foldl (fun m j => m.set false (base.toNat + j) (form == .int32)) m
    let k1 := { k with
      port := { k.port with stream := t + n }
      rowMode := mode k.rowMode
      rowPoison := k.rowPoison.clearRange base.toNat (base.toNat + n) }
    commitSlot i errs (fly x 2 1 (.accLd base.toNat n addr 0 form) (noteRows x base.toNat n k1))

/-- Sources of a VE instruction: a register or one lane value for all (R74). -/
def src2Lanes (k : Core) (w : Nat) (b : Src2) : List Nat :=
  match b with
  | .v r => if w = 16 then lanes16 (vRead k r.toNat) else lanes32 (vRead k r.toNat)
  | .g r => List.replicate (16384 / w) ((gRead k r.toNat).toNat % 2 ^ w)

/-- General register that a second source names, if any. -/
def Src2.gs : Src2 → List G
  | .v _ => []
  | .g r => [r]

/-- Vector register that a second source names, if any. -/
def Src2.vs : Src2 → List VReg
  | .v r => [r]
  | .g _ => []

/-- Lanes of a register at a lane width. -/
def lanesOf (w : Nat) (x : BitVec 16384) : List Nat := if w = 16 then lanes16 x else lanes32 x

/-- R89: a poisoned source register. -/
def vePoison (k : Core) (vs : List VReg) (ps : List PReg) (ss : List Nat) : Bool :=
  vs.any (fun r => k.ve.vPoison.getLsbD r.toNat) || ps.any (fun r => r.toNat != 0 && k.ve.pPoison.getLsbD r.toNat)
    || ss.any fun s => (k.sum.get {} s).poison

/-- A write of summary register `s` is under way: as it lands, the register is no longer poisoned (R81, R90). -/
def Core.summWaits (k : Core) (s : Nat) : Bool :=
  k.flights.any fun f => match f.ev with
    | .landS s' .. | .landSeen s' .. => s' == s && !f.keep.getLsbD s
    | _ => false

/-- Write-order conditions of the destinations of a VE instruction (R73). -/
def veOrder (k : Core) (n : Nat) (vd : Option VReg) (pd : Option PReg) (sd : Option Nat) : Bool :=
  let t := k.cycle + n
  (match vd with
    | some r => !orderOk k.vDue r.toNat t
    | none => false)
  || (match pd with
    | some r => r.toNat != 0 && !orderOk k.pDue r.toNat t
    | none => false)
  || (match sd with
    | some s => !orderOk k.sDue s t
    | none => false)

def flyV (x : Site) (r : VReg) (n : Nat) (val mask : BitVec 16384) (k : Core) : Core :=
  fly x 3 n (.landV r.toNat val mask) (noteV x r.toNat { k with vDue := k.vDue.set 0 r.toNat (k.cycle + n) })

def flyP (x : Site) (r : PReg) (n : Nat) (val mask : BitVec 1024) (k : Core) : Core :=
  if r.toNat = 0 then k
  else fly x 3 n (.landP r.toNat val mask) (noteP x r.toNat { k with pDue := k.pDue.set 0 r.toNat (k.cycle + n) })

/-- R41: a converting instruction takes its draws and flags. -/
def veConv (x : Site) (sr : Bool) (f : Cvt) (k : Core) : Core :=
  let v := k.ve
  { k with ve := { v with cvt := v.cvt.or f, save := saveDraw v.save x.prov v.draw,
                          draw := takeDraws v.draw (if sr then 1 else 0) } }

/-- Table 04-16: a local-store range of the VE. -/
def veRange (c addr align len : Nat) : List Flt :=
  if addr % align = 0 ∧ addr + len ≤ lsTop then [] else [{ code := 0x0204, addr := lsAddr c addr, slot := 3 }]

/-- R72 to R85: the vector slot. -/
def issueVe (x : Site) (op : VeOp) (i : Iss) : Iss :=
  let k := i.core
  let t := k.cycle
  let gv (r : G) : Nat := (gRead k r.toNat).toNat
  let pz (rs : List G) : Bool × Code := (rs.any fun r => !gOk k r.toNat, Err.poisonedReg)
  let busy (p : Nat) : Bool × Code := (decide (t < p), Err.portBusy)
  let pois (vs : List VReg) (ps : List PReg) : Bool × Code := (vePoison k vs ps [], 0x0205)
  let wo (n : Nat) (vd : VReg) : Bool × Code := (veOrder k n (some vd) none none, Err.writeOrder)
  let alu (n : Nat) : Core := { k with port := { k.port with alu := t + n } }
  let key := unitKey x.e k.ve.draw 0
  let cnt := k.ve.draw.count
  let lanePut (vd : VReg) (lat w : Nat) (pm : Pm) (es : List (Bool × Code)) (ls : List Nat) : Iss :=
    let p := pRead k pm.pm.toNat
    commitSlot i (errsOf x 3 (es ++ [busy k.port.alu, wo lat vd]))
      (flyV x vd lat (ofLanes w (govern p ls)) (writeMask w (16384 / w) p (pm.zero == 1)) (alu 1))
  let predPut (pd : PReg) (lat : Nat) (es : List (Bool × Code)) (v : BitVec 1024 × BitVec 1024) : Iss :=
    commitSlot i (errsOf x 3 (es ++ [busy k.port.alu, (veOrder k lat none (some pd) none, Err.writeOrder)]))
      (flyP x pd lat v.1 v.2 (alu 1))
  match op with
  | .nop => i
  | .ld vd pm gs =>
    let p := pRead k pm.pm.toNat
    let errs := errsOf x 3 [pz [gs], pois [] [pm.pm], busy k.port.ls, wo 8 vd] ++ veRange x.e.c (gv gs) 64 2048
    commitSlot i errs (fly x 3 1 (.veLd vd.toNat (gv gs) (activeMask 32 512 p) (writeMask 32 512 p (pm.zero == 1)))
      (noteV x vd.toNat { k with port := { k.port with ls := t + 1 }, vDue := k.vDue.set 0 vd.toNat (t + 8) }))
  | .ldb vd pm gs w =>
    let p := pRead k pm.pm.toNat
    let errs := errsOf x 3 [pz [gs], pois [] [pm.pm], busy k.port.ls, wo 8 vd]
      ++ veRange x.e.c (gv gs) 4 (4 * (512 / w.width))
    commitSlot i errs
      (fly x 3 1 (.veLdb vd.toNat (gv gs) w.width (activeMask 32 512 p) (writeMask 32 512 p (pm.zero == 1)))
        (noteV x vd.toNat { k with port := { k.port with ls := t + 1 }, vDue := k.vDue.set 0 vd.toNat (t + 8) }))
  | .st va gs off len =>
    let o := 8 * off.toNat
    let n := 8 * (len.toNat + 1)
    let errs := errsOf x 3 [pz [gs], pois [va] [], busy k.port.ls]
      ++ veRange x.e.c (gv gs) 8 n
      ++ (if o + n ≤ 2048 then [] else [{ code := 0x0204, addr := lsAddr x.e.c (gv gs), slot := 3 }])
    commitSlot i errs (fly x 3 5 (.veSt (gv gs) (((vBytes (vRead k va.toNat)).drop o).take n))
      { k with port := { k.port with ls := t + 1 } })
  | .accrd vd pm mode row int sf =>
    let p := pRead k pm.pm.toNat
    let md := Mode.ofCode mode.toNat
    let lo := k.acc.get {} row.toNat
    let hi := k.acc.get {} (row.toNat + 1)
    let rowOk := row.toNat % 2 == 0 && decide (row.toNat ≤ 1022)
    let errs := errsOf x 3 [pois [] [pm.pm], (!rowOk, 0x0203), (rowOk && (lo.poison || hi.poison), Err.poisonedME),
      (decide (t < k.port.acc) || decide (t < k.port.accRead), Err.portBusy),
      (veOrder k 6 (some vd) none (sf.map (·.toNat)), Err.writeOrder)]
    let rd (r : AccRow) (base : Nat) := (accEntries r).mapIdx fun j e =>
      let d := laneDraw md.sr key cnt (base + j)
      if int == 1 then readI32 r.int md d e else readF32 r.int md d e
    let es := rd lo 0 ++ rd hi 256
    let f := (es.mapIdx fun j e => if p.getLsbD j then e.2 else Cvt.none).foldl Cvt.or Cvt.none
    let nan := lo.nan || hi.nan || (int == 1 && f.nanin)
    let k1 := veConv x md.sr f { k with port := { k.port with acc := t + 1, accRead := t + 1 } }
    let k2 := flyV x vd 6 (ofLanes 32 (govern p (es.map (·.1)))) (writeMask 32 512 p (pm.zero == 1)) k1
    let k3 := match sf with
      | some s => fly x 3 6 (.landSeen s.toNat (lo.range || hi.range) (lo.inf || hi.inf) nan)
          (noteS x s.toNat { k2 with sDue := k2.sDue.set 0 s.toNat (t + 6) })
      | none => k2
    commitSlot i errs k3
  | .bin op vd va b pm =>
    let w := op.width
    lanePut vd op.lat w pm [pz b.gs, pois (va :: b.vs) [pm.pm]]
      (List.zipWith op.lane (lanesOf w (vRead k va.toNat)) (src2Lanes k w b))
  | .tri op vd va b vc pm =>
    let w := op.width
    lanePut vd 4 w pm [pz b.gs, pois (va :: vc :: b.vs) [pm.pm]]
      (List.zipWith (fun ab c => op.lane ab.1 ab.2 c)
        ((lanesOf w (vRead k va.toNat)).zip (src2Lanes k w b)) (lanesOf w (vRead k vc.toNat)))
  | .un op vd va pm =>
    lanePut vd 2 32 pm [pois [va] [pm.pm]] ((lanes32 (vRead k va.toNat)).map op.lane)
  | .cmpF cc pd va b pm =>
    let p := pRead k pm.pm.toNat
    predPut pd 2 [pz b.gs, pois (va :: b.vs) [pm.pm]]
      (cmpWrite p (pm.zero == 1) (List.zipWith (cmpLaneF cc) (lanes32 (vRead k va.toNat)) (src2Lanes k 32 b)))
  | .cmpI cc pd va b pm =>
    let p := pRead k pm.pm.toNat
    predPut pd 2 [pz b.gs, pois (va :: b.vs) [pm.pm]]
      (cmpWrite p (pm.zero == 1) (List.zipWith (cmpLaneI cc) (lanes32 (vRead k va.toNat)) (src2Lanes k 32 b)))
  | .sel ps vd va b pm =>
    let q := pRead k ps.toNat
    lanePut vd 2 32 pm [pz b.gs, pois (va :: b.vs) [pm.pm, ps]]
      (((lanes32 (vRead k va.toNat)).zip (src2Lanes k 32 b)).mapIdx fun j ab =>
        if q.getLsbD j then ab.1 else ab.2)
  | .plog op pd pa pb =>
    let a := pRead k pa.toNat
    let b := pRead k pb.toNat
    let r := match op with
      | .and => a &&& b
      | .or => a ||| b
      | .xor => a ^^^ b
    predPut pd 1 [pois [] [pa, pb]] (r, BitVec.allOnes 1024)
  | .pnot pd pa => predPut pd 1 [pois [] [pa]] (~~~(pRead k pa.toNat), BitVec.allOnes 1024)
  | .cvt vd va given pm gs mode target source sc half =>
    let p := pRead k pm.pm.toNat
    let k3 := Scaling.ofCode sc.toNat
    let md := Mode.ofCode mode.toNat
    let ts := gv gs % 256
    let vs := cvtSources source k3 half.toNat ts x.e.free (vRead k va.toNat)
    let ds := (List.range 512).map fun j => laneDraw md.sr key cnt j
    let r := cvtResult target k3 md half.toNat ts p (pm.zero == 1) vs ds
      (given.map fun g => lanes32 (vRead k g.toNat))
    let blockTarget := target.scaled && k3.blocky
    let errs := errsOf x 3 [pz [gs], pois (va :: given.toList) [pm.pm],
      (!cvtOk source target k3 given.isSome ts, 0x0206), busy k.port.alu, wo 5 vd]
    commitSlot i errs (flyV x vd 5 r.val r.mask (veConv x md.sr r.flags (alu (if blockTarget then 2 else 1))))
  | .scode vd va pm ty =>
    lanePut vd 5 32 pm [pois [va] [pm.pm], (!ty.scaled, 0x0206)]
      ((lanes32 (vRead k va.toNat)).map (scodeLane ty))
  | .fn der isBf vd va pm mode tbl =>
    let p := pRead k pm.pm.toNat
    let n := tbl.toNat + (if der then 8 else 0)
    let tb := k.tables.get {} n
    let md := Mode.ofCode mode.toNat
    let base (lat : Nat) := errsOf x 3 [pois [va] [pm.pm], (!k.tableReady n, 0x0201), (tb.poison, 0x0205),
      busy k.port.fn, wo lat vd]
    if isBf then
      let rs := (lanes16 (vRead k va.toNat)).mapIdx fun l a =>
        fmtBF16.convert md (laneDraw md.sr key cnt l) (f32 (fnEval tb.image (a * 65536)))
      let f := (rs.mapIdx fun l e => if p.getLsbD l then e.2 else Cvt.none).foldl Cvt.or Cvt.none
      commitSlot i (base 14) (flyV x vd 14 (ofLanes 16 (govern p (rs.map (·.1))))
        (writeMask 16 1024 p (pm.zero == 1))
        (veConv x md.sr f { k with port := { k.port with fn := t + 4 } }))
    else
      commitSlot i (base 12) (flyV x vd 12
        (ofLanes 32 (govern p ((lanes32 (vRead k va.toNat)).map (fnEval tb.image))))
        (writeMask 32 512 p (pm.zero == 1)) { k with port := { k.port with fn := t + 2 } })
  | .red op vd va pm w =>
    let p := pRead k pm.pm.toNat
    let errs := errsOf x 3 [pois [va] [pm.pm], busy k.port.red, wo 10 vd]
    commitSlot i errs (flyV x vd 10 (ofLanes 32 (govern p (reduce op w p (lanes32 (vRead k va.toNat)))))
      (writeMask 32 512 p (pm.zero == 1)) { k with port := { k.port with red := t + 1 } })
  | .summ sd va pm pc mag merge =>
    let isMag := mag == 1
    let isMerge := merge == 1
    let errs := errsOf x 3 [(vePoison k [va] [pm, pc] (if isMerge && !k.summWaits sd.toNat then [sd.toNat] else []), 0x0205),
      (isMerge && k.sumOp.get false sd.toNat != isMag, 0x0207), busy k.port.red,
      (veOrder k 14 none none (some sd.toNat), Err.writeOrder)]
    let r := summOf (pRead k pm.toNat) (pRead k pc.toNat) isMag (lanes32 (vRead k va.toNat))
    let k1 := { k with
      port := { k.port with red := t + 1 }
      sumOp := k.sumOp.set false sd.toNat isMag
      sDue := k.sDue.set 0 sd.toNat (t + 14) }
    commitSlot i errs (fly x 3 14 (.landS sd.toNat r isMerge) (if isMerge && x.prov.isNone then k1 else noteS x sd.toNat k1))
  | .tld tt gs =>
    let errs := errsOf x 3 [pz [gs], busy k.port.tl] ++ veRange x.e.c (gv gs) 64 4160
    commitSlot i errs (fly x 3 1 (.veTld tt.toNat (gv gs) 0 [] false)
      (noteT x tt.toNat { k with port := { k.port with tl := t + 65 } }))

/-- R98: after the bundle has issued, the pc and the delay count move on. `before` is the branch that was pending when
it issued. -/
def afterBundle (before : Option BrPend) (k : Core) : Core :=
  match before with
  | none => { k with pc := k.pc + 1 }
  | some b =>
    if 1 < b.left then { k with pc := k.pc + 1, branch := some { b with left := b.left - 1 } }
    else match b.target with
      | some t => { k with pc := t, branch := none }
      | none =>
        { k with pc := 0, branch := none, block := none,
                 run := if k.launches.isEmpty then .idle else .held }

/-- R93: the four slots of a bundle issue in one contract cycle, then the cycle ends. -/
def issueSlots (x : Site) (b : Bundle) (k : Core) : Iss :=
  let i := issueVe x b.ve (issueMm x b.mm (issueMv x b.mv (issueSc x b.sc { core := k })))
  { i with core := { afterBundle k.branch i.core with cycle := k.cycle + 1 }, faults := i.faults.map x.own }

end Sys2Proof.Machine
end

