-- ==== Sys2Proof/Machine/SyncState.lean ====
section
/-! DEFINITION. The state of the sync unit and of fabric time (chapter 07). -/

namespace Sys2Proof.Machine

/-- Who armed a watch slot (Table 07-2), and so whom a firing with DEST 0 reaches. -/
inductive Waiter
  | core (c : Nat)
  | stream (p k : Nat)
  | part (p : Nat)
  | rake
  | remote (srcId : Nat)
deriving DecidableEq, Repr

/-- An armed watch (Table 07-3). `epoch` is the tag of the provisional work that armed it. -/
structure Watch where
  cond : Nat
  view : Bool
  dest : Nat
  counter : Nat
  value : Word
  time : Word
  word3 : Word
  who : Waiter
  epoch : Option Word
  /-- partition of the requester that armed it -/
  part : Option Nat := none
deriving DecidableEq, Repr

/-- SYNC_GROUPg (Table 07-20). -/
structure Group where
  valid : Bool := false
  part : Nat := 0
  epoch : Bool := false
  remAdd : Bool := false
  remWatch : Bool := false
  host : Bool := false
deriving DecidableEq, Repr

/-- BARRIERb (Table 07-21). -/
structure Barrier where
  a : Nat := 0
  n : Nat := 0
  valid : Bool := false
deriving DecidableEq, Repr

/-- WATCH_SPLITp (Table 07-22). -/
structure Split where
  first : Nat := 0
  count : Nat := 0
deriving DecidableEq, Repr

/-- FT_CTRL (Table 07-18). -/
structure FtCtrl where
  enable : Bool := false
  root : Bool := false
  parentLink : Nat := 0
  altLink : Nat := 0
  altEn : Bool := false
deriving DecidableEq, Repr

/-- The states of Table 07-10. -/
inductive FtState
  | free | acquire | locked | holdover
deriving DecidableEq, Repr

/-- A time exchange in progress: its number and t1 (R176). -/
structure Exch where
  num : Nat
  t1 : Word
deriving DecidableEq, Repr

/-- The sync unit. `counters` holds the committed values, `provs` the provisional ones; on a counter that is not
epoch-scoped the two are equal (R115, R163). -/
structure Sync where
  counters : Tab Word := []
  provs : Tab Word := []
  watches : Tab (Option Watch) := []
  groups : Tab Group := []
  barriers : Tab Barrier := []
  splits : Tab Split := []
  err : Bool := false
  errCode : Code := 0
  faultAddr : Nat := 0
  faultSrc : Nat := 0
  ft : Word := 0
  ctrl : FtCtrl := {}
  ftState : FtState := .free
  ftLink : Nat := 0
  ftDepth : Nat := 0
  ftOffset : BitVec 32 := 0
  /-- one-way flight of the last exchange, ns (R176) -/
  ftDelay : Int := 0
  /-- nanoseconds still to be slewed (R175) -/
  slew : Int := 0
  /-- the last trained frequency, ppm above nominal (R177): a free value (log entry 103) -/
  rate : Int := 0
  /-- millionths of a nanosecond that this frequency has gathered -/
  frac : Int := 0
  /-- the unit has been LOCKED since the full reset (R175) -/
  locked : Bool := false
  /-- exchanges in a row within 5 ns (R177) -/
  goodEx : Nat := 0
  /-- the first exchange after the full reset has stepped the time (R177) -/
  stepped : Bool := false
  /-- fabric time has been loaded or stepped (Table 15-3, FTIME) -/
  loaded : Bool := false
  exch : Option Exch := none
  exchNum : Nat := 0
  /-- model: nanoseconds of the fabric clock since reset, for timers -/
  clock : Nat := 0
deriving DecidableEq, Repr

end Sys2Proof.Machine
end

