-- ==== Sys2Proof/Machine/ChipState.lean ====
section
/-! DEFINITION. Management state (chapter 15), and the model's own record of answers and of what leaves the module. -/

namespace Sys2Proof.Machine

/-- The last answer to a requester (assumption log 3). -/
inductive Ans
  | none
  /-- served, with the bytes of a read -/
  | ok (data : List Byte)
  | refused (code : Code)
  | held
  /-- not accepted now: the unit takes no further request (R136) -/
  | full
  /-- what the command names is not there, or is not yet due: nothing happened -/
  | idle
deriving DecidableEq, Repr

/-- What leaves the module by a way other than a link (assumption log 3). -/
inductive Out
  | msix (fn vector : Nat)
  | hostWrite (addr : Nat) (data : List Byte)
  | oob (data : List Byte)
  | pin (name : String) (level : Bool)
deriving DecidableEq, Repr

end Sys2Proof.Machine
end

