-- ==== Sys2Proof/Machine/HostState.lean ====
section
/-! DEFINITION. The state of the host interface: functions, mailboxes, notifications (chapter 12). -/

namespace Sys2Proof.Machine

/-- A notification record (R314). -/
structure NoteRec where
  tag : Nat
  time : Bool
  at' : Word
  mbox : Nat
deriving DecidableEq, Repr

/-- A mailbox (Table 12-5). `bytes` holds offsets 0x000 to 0xFFF but for 0x010 to 0x01F. `args` are the argument
words read at arming, `op`, `irq` and `vector` what the header said then. -/
structure Mbox where
  bytes : Tab Byte := []
  doneSeq : Nat := 0
  seq : Nat := 0
  /-- 0 IDLE, 1 RUNNING, 2 DONE -/
  state : Nat := 0
  status : Code := 0
  rlen : Nat := 0
  detail : Word := 0
  op : Nat := 0
  irq : Bool := false
  vector : Nat := 0
  args : List Word := []
  /-- the command has begun and waits for an event -/
  begun : Bool := false
  since : Nat := 0
  /-- place in the order of arming (R301) -/
  order : Nat := 0
  /-- SEQ of an arming write that the dispatch processor has not taken yet -/
  armed : Option Nat := none
deriving DecidableEq, Repr

/-- A function: 0 physical, 1 to 8 virtual. -/
structure Fn where
  session : Bool := false
  events : BitVec 5 := 0
  evVector : Nat := 0
  evEn : Bool := false
  agreed : BitVec 256 := 0
  notifyLost : Word := 0
  bar2Code : Code := 0
  bar2Addr : Nat := 0
  bar2Base : Nat := 0
  bar2Size : Nat := 0
  discards : Word := 0
  bound : Option Nat := none
  notes : List NoteRec := []
  /-- the MSI-X table (Table 12-2) -/
  msix : Tab Byte := []
deriving DecidableEq, Repr

/-- The host interface. Mailbox m of function f has key 64 f + m. `bar2Size` of a function is the exponent above
1 GiB. -/
structure HostIf where
  fns : Tab Fn := []
  mboxes : Tab Mbox := []
  vfEnable : Bool := false
  /-- mailboxes armed so far -/
  arms : Nat := 0
  fwVersion : Word := 0
  offered : BitVec 256 := 0x7F000000000000007F
  /-- the PCI Express link runs at its highest common rate -/
  linkFast : Bool := false
deriving DecidableEq, Repr

end Sys2Proof.Machine
end

