-- ==== Sys2Proof/Machine/OptState.lean ====
section
/-! DEFINITION. The state of the light engines, links and lanes (chapter 09). -/

namespace Sys2Proof.Machine

/-- What a resweep is for, while one runs. -/
inductive Sweep
  | none | due | forced | fault | out
deriving DecidableEq, Repr

/-- How a lane that has left the map returns: not at all, by JOIN, or as the spare (R234, R239, R243). -/
inductive Back
  | none | join | spare
deriving DecidableEq, Repr

/-- A lane of a link: both its rings. States by Table 09-4; `txCal` and `rxCal` are the heater codes that calibration recorded. -/
structure Lane where
  txState : Nat := 0
  rxState : Nat := 0
  toneOk : Bool := false
  txHeater : Nat := 0
  rxHeater : Nat := 0
  txCal : Nat := 0
  rxCal : Nat := 0
  ber : Nat := 0
  txRel : Int := 0
  corr : Nat := 0
  uncorr : Nat := 0
  /-- uncorrectable codewords in a row (R239) -/
  badRun : Nat := 0
  stage : Nat := 0
  /-- SPARE_EXHAUSTED, MIGRATION_FAILED have been reported since the lane reached stage 2 -/
  exhausted : Bool := false
  gaveUp : Bool := false
  /-- since when the lane has stayed above −1.5 dB, and above −2 dB (R240, R243) -/
  above15 : Option Nat := none
  above20 : Option Nat := none
  txSweep : Sweep := .none
  rxSweep : Sweep := .none
  txSwept : Nat := 0
  rxSwept : Nat := 0
  /-- a resweep has passed since the lane went out (R239, R243) -/
  txPassed : Bool := false
  rxPassed : Bool := false
  /-- CAL_DEFERRED has been reported since the ring became due -/
  txDeferred : Bool := false
  rxDeferred : Bool := false
  txDue : Bool := false
  rxDue : Bool := false
  txBack : Back := .none
  rxBack : Back := .none
  /-- since when the lane is out because the receiver asked for it -/
  askedOut : Option Nat := .none
  /-- the BERT of start-up found the receive lane bad once, the transmit lane (R247) -/
  rxRetest : Bool := false
  txRetest : Bool := false
deriving DecidableEq, Repr

/-- A migration by this sender (R241). Slot times count from the link's coming up. -/
structure Migration where
  slot : Nat
  lane : Nat
  effect : Nat
  confirmed : Bool := false
  stopAt : Nat := 0
  begun : Nat
deriving DecidableEq, Repr

/-- An announcement being repeated (R224): MAP_OP, lane, first slot, slot of effect. MAP_OP 4 stands for MIG_V. -/
structure Announce where
  op : Nat
  lane : Nat
  first : Nat
  effect : Nat
deriving DecidableEq, Repr

/-- A gap announced by a hint (R237): its next round, its end, and the rounds left. -/
structure GapWin where
  start : Nat
  stop : Nat
  rounds : Nat
deriving DecidableEq, Repr

/-- A discovery under way (R246, R253): since when, on which lane of each direction, and the roles that the lanes return to. -/
structure Disc where
  since : Nat
  tx : Option (Nat × Nat) := none
  rx : Option (Nat × Nat) := none
deriving DecidableEq, Repr

/-- A link. Maps are lists of lanes by data slot; roles by Table 09-5, DATA where none is listed. -/
structure OLink where
  txMap : List Nat := [0, 1, 2, 3, 4, 5, 6, 7]
  rxMap : List Nat := [0, 1, 2, 3, 4, 5, 6, 7]
  txRole : Tab Nat := [(8, 2)]
  rxRole : Tab Nat := [(8, 2)]
  txSpare : Nat := 8
  rxSpare : Nat := 8
  lanes : Tab Lane := []
  trained : Bool := false
  /-- the row of Table 09-8 that the link has reached: 0 none, 1 laser checked, 2 transmit rings, 3 receive rings, 4 discovery,
  5 loopback, 6 BERT, 7 in service -/
  cal : Nat := 0
  /-- when the receive rings were last swept -/
  rxTried : Nat := 0
  /-- discovery found the wrong peer, or the plan holds the link down -/
  mismatch : Bool := false
  peerEnc : Bool := false
  peerId : Nat := 0
  peerLink : Nat := 0
  changed : Nat := 0
  slot : Nat := 0
  rxSlot : Nat := 0
  ann : List Announce := []
  /-- announcements heard from the peer for its own direction -/
  heard : List Announce := []
  reqs : List (Nat × Nat × Nat) := []
  lost : List (Nat × Nat) := []
  /-- run lists of the last 128 slots: slot, (class × 2 + VC, chunks that took a credit), credits returned -/
  runs : List (Nat × List (Nat × Nat) × Bool) := []
  /-- chunks freed here by class × 2 + VC, and the last counts heard from the peer -/
  freed : Tab Nat := []
  heardFreed : Tab Nat := []
  nextReport : Nat := 0
  /-- 16-byte units still to come of the packet being received, by class × 2 + VC -/
  rest : Tab Nat := []
  mig : Option Migration := none
  migSlot : Nat := 0
  migTries : Nat := 0
  migRetry : Option Nat := none
  /-- equal codeword pairs decoded in a row, for a slot that the peer migrates -/
  rxMig : Option (Nat × Nat × Nat) := none
  loop : Option Nat := none
  /-- the loopback was originated here -/
  loopOwn : Bool := false
  loopAsked : Option Nat := none
  loopRetry : Option Nat := none
  loopLast : Nat := 0
  disc : Option Disc := none
  discRetry : Option Nat := none
  gaps : List GapWin := []
  keyTx : Bool := false
  keyRx : Bool := false
  /-- a re-key of an encrypting link under way: 0 none, 1 the transmit slot is new, 2 the receive slot (R373) -/
  rekey : Nat := 0
  groupsTx : Nat := 0
deriving DecidableEq, Repr

/-- A light engine. -/
structure Engine where
  calDone : Bool := false
  laserOk : Bool := false
  /-- wavelengths below +16.0 dBm at the last check (R221) -/
  low : List Nat := []
  rel : Tab Int := []
  stage : Tab Nat := []
  /-- fabric clock of the crossings of stages 2 and 3 per wavelength and link: key 16 × lane + link -/
  cross2 : Tab (Option Nat) := []
  cross3 : Tab (Option Nat) := []
deriving DecidableEq, Repr

/-- The optics block (Tables 09-11 to 09-14). -/
structure Opt where
  err : Bool := false
  errCode : Code := 0
  faultLink : Nat := 0
  faultLane : Nat := 0
  faultDir : Nat := 0
  gaps : Bool := false
  minLanes : Nat := 4
  spareCal : Nat := 0x258
  engines : Tab Engine := []
  links : Tab OLink := []
deriving DecidableEq, Repr

end Sys2Proof.Machine
end

