-- ==== Sys2Proof/Machine/PartState.lean ====
section
/-! DEFINITION. The state of a partition: job, streams, phase records, norm accumulators, snapshots
(chapters 01, 10, 11, 12). -/

namespace Sys2Proof.Machine

/-- A command list of a stream (R310): its mailbox, LIST and END, the position at which it starts (R312), the commands of it
that completed. With `again` its SUBMIT has ended, and a squash has brought it back (R118). -/
structure SubList where
  fn : Nat
  mbox : Nat
  first : Nat
  fin : Nat
  start : Nat
  executed : Nat := 0
  again : Bool := false
deriving DecidableEq, Repr

/-- A command stream (R310 to R312). A place in it is the number of lists in `past` and a position. `past` are lists that have ended
and hold provisional commands, oldest first; `marks` holds, for each provisional tag, the place of its first command. After a
squash `redo` is the squashed tag: before the place `reached` only commands of that tag run again (R118). -/
structure Stream where
  lists : List SubList := []
  started : Bool := false
  pos : Nat := 0
  hasPos : Bool := false
  past : List SubList := []
  marks : List (Word × Nat × Nat) := []
  redo : Option Word := none
  reached : Nat × Nat := (0, 0)
  /-- a WAIT has armed this watch slot -/
  wait : Option Nat := none
  /-- its condition has held -/
  fired : Bool := false
  /-- cores on which a LAUNCH is still to be queued; none before its block is copied -/
  toQueue : Option (List Nat) := none
deriving DecidableEq, Repr

/-- A phase record (R267, Table 10-14). -/
structure Phase where
  count : Word := 0
  total : Word := 0
  min : Word := 0xFFFFFFFFFFFFFFFF
  max : Word := 0
  last : Word := 0
  openAt : Word := 0
  isOpen : Bool := false
deriving DecidableEq, Repr

/-- A norm accumulator (R261): the sum in units of 2^-298. -/
structure Norm where
  sum : Nat := 0
  nan : Bool := false
  inf : Bool := false
  inst : Option Nat := none
deriving DecidableEq, Repr

/-- SNAP_REGIONi (Table 11-9). -/
structure SnapRegion where
  snap : Bool := false
  mode : Nat := 0
  delta : Bool := false
  rate : Nat := 0
  lastBytes : Nat := 0
deriving DecidableEq, Repr

/-- A schedule record (Table 11-2), before it is written. -/
structure SchedRec where
  epoch : Word
  planId : Word
  selfId : Nat
  streams : Tab Nat
  draws : Tab Draw
  phases : Tab Phase
  groups : List (Nat × Tab Word)
deriving DecidableEq, Repr

/-- A write of the drain engine to offset `off` of another module: `len` bytes from local address `src`, then `data`. With
`fence` it is made only once every earlier one has been performed (R280). With `add` the completion of this last write adds
1 to a counter there (R290). -/
structure Send where
  dst : Nat
  off : Nat
  src : Nat := 0
  len : Nat := 0
  data : List Byte := []
  fence : Bool := false
  add : Option Nat := none
deriving DecidableEq, Repr

/-- A running drain (R281). `pages` are the pages (region, page) captured out of order; `sending` once capture is
done. -/
structure Drain where
  epoch : Word
  slot : Nat
  base : Bool
  pages : List (Nat × Nat) := []
  /-- changed lines counted per region -/
  changed : Tab Nat := []
  sending : Bool := false
deriving DecidableEq, Repr

/-- An agreement in progress (R283): epoch, own partial value 0 when written, slot. -/
structure Agree where
  epoch : Word
  good : Bool
  slot : Option Nat
  base : Bool
deriving DecidableEq, Repr

/-- A FILL in progress (R289). -/
structure Fill where
  epoch : Word
  sources : Nat
  counter : Nat
  slot : Nat
  fn : Nat
  mbox : Nat
deriving DecidableEq, Repr

/-- A FILL_SERVE in progress (R290). -/
structure Serve where
  client : Nat
  fn : Nat
  mbox : Nat
  sends : List Send
deriving DecidableEq, Repr

/-- State of a local slot: 0 empty, 1 writing, 2 written, 3 job-complete. -/
structure Slot where
  epoch : Word := 0
  state : Nat := 0
  base : Bool := false
deriving DecidableEq, Repr

/-- The snapshot block (Tables 11-7 to 11-9) and what the drain engine keeps (R287). -/
structure Snap where
  err : Bool := false
  errCode : Code := 0
  stalling : Bool := false
  quiesced : Bool := false
  restoring : Bool := false
  needBase : Bool := false
  latest : Nat := 3
  base : Nat := 3
  enable : Bool := false
  stall : Bool := false
  baseK : Nat := 8
  agreeColl : Nat := 0
  intMin : Nat := 1
  intMax : Nat := 0x400
  deltaMin : Nat := 0x40
  cMin : Nat := 1
  cMax : Nat := 0xEA60
  mPrior : Nat := 0x18
  mMin : Nat := 1
  mMax : Nat := 0x2238
  window : Nat := 8
  rateLo : Nat := 0x1A
  rateHi : Nat := 0x33
  locBase : Nat := 0
  slotSize : Nat := 0
  holdM : Nat := 0
  holdMOff : Nat := 0
  holdD : Nat := 0
  holdDOff : Nat := 0
  steps : Nat := 1
  anchor : Word := 0
  lastComplete : Word := 0
  lastBase : Word := 0
  cost : Word := 0
  mtbf : Word := 0
  proposal : Nat := 0
  complete : Nat := 0
  notComplete : Nat := 0
  drainDone : Nat := 0
  regions : Tab SnapRegion := []
  slots : Tab Slot := []
  drain : Option Drain := none
  /-- writes to the holders still to be made -/
  sends : List Send := []
  /-- base slot at the log holder of the last job-complete base; 2 none -/
  holdBase : Nat := 2
  agree : Option Agree := none
  /-- skipped snapshots whose agreement value 1 is still due (R278) -/
  skips : List Word := []
  records : List SchedRec := []
  /-- commits: fabric time and whether a drain ran in the period that the commit ended -/
  periods : List (Nat × Bool) := []
  lastCommit : Option Word := none
  drainRan : Bool := false
  failTimes : List Word := []
  sinceBase : Nat := 0
  logTail : Nat := 0
  logEnd : Nat := 0
  fill : Option Fill := none
  serves : List Serve := []
  /-- the last RESTORE or FILL has completed (R313) -/
  loaded : Bool := false
deriving DecidableEq, Repr

/-- A COMMIT in progress (R16, R148). `undo` holds what the apply pass has replaced, newest first. -/
structure Commit where
  stream : Nat
  epoch : Word
  applied : Bool := false
  undo : List (Nat × List Byte) := []
deriving DecidableEq, Repr

/-- A partition. -/
structure Part where
  valid : Bool := false
  first : Nat := 0
  log2 : Nat := 0
  job : Bool := false
  jobSeed : Word := 0
  epoch : Word := 0
  attempt : Nat := 0
  halted : Bool := false
  haltCode : Code := 0
  /-- a halt is requested, with the code and the stream whose command faulted (R120, R313) -/
  haltReq : Option (Code × Option Nat) := none
  squash : Option Word := none
  commit : Option Commit := none
  mem : PMem := {}
  streams : Tab Stream := []
  phases : Tab Phase := []
  traceBase : Nat := 0
  traceSize : Nat := 0
  traceIndex : Word := 0
  memCur : Tab Word := []
  memPeak : Tab Word := []
  norms : Tab Norm := []
  /-- norm accumulators as they stood at the first launch of squashable work (R266) -/
  normSave : Option (Tab Norm) := none
  snap : Snap := {}
  energy : Word := 0
  streamEnergy : Tab Word := []
deriving DecidableEq, Repr

end Sys2Proof.Machine
end

