-- ==== Sys2Proof/Machine/RakeState.lean ====
section
/-! DEFINITION. The state of the rake and of the sluice plan (chapter 10). -/

namespace Sys2Proof.Machine

/-- A collective entry of the plan (Table 10-3). -/
structure CollEntry where
  op : Nat := 0
  algo : Nat := 0
  wire : Nat := 0
  treeK : Nat := 0
  normEn : Bool := false
  normIdx : Nat := 0
  late : Nat := 0
  group : Nat := 0
  members : Nat := 0
  pos : Nat := 0
  cls : Nat := 0
  memberBase : Nat := 0
  dstep : Nat := 0
  lateBase : Nat := 0
deriving DecidableEq, Repr

/-- An entry of the LINKS section (Table 10-2). -/
structure LinkExp where
  peer : Nat := 0
  link : Nat := 0
  used : Bool := false
  enc : Bool := false
deriving DecidableEq, Repr

/-- A launch record (Table 10-5). -/
structure CollRec where
  coll : Nat
  inst : Nat
  counter : Nat
  inc : Nat
  src : Nat
  srcTy : Nat
  dstTy : Nat
  dst : Nat
  count : Nat
  deadline : Word
  comp : Nat
  aux : Nat
  aux2 : Nat
deriving DecidableEq, Repr

/-- Elements of a partial or a result that have arrived: who sent them, KIND, ring direction or tree level, first
element, FP32 codes (bytes for counts and raw data). -/
structure Piece where
  pos : Nat
  kind : Nat
  step : Nat
  late : Bool
  first : Nat
  vals : List Nat
deriving DecidableEq, Repr

/-- An active collective. `tag` is the epoch tag of its command. -/
structure Coll where
  part : Nat
  stream : Nat
  tag : Word
  attempt : Nat
  rc : CollRec
  tStart : Word := 0
  slot : Option Nat := none
  /-- this module's contribution as read at the start: FP32 codes, or codes of its type where they move unchanged -/
  own : List Nat := []
  pieces : List Piece := []
  /-- trees whose partial this node has computed and sent on -/
  reduced : List Nat := []
  missing : List Nat := []
  fenced : Nat := 0
  delivered : Nat := 0
  unreachable : Nat := 0
  lateApplied : Bool := false
  nonfinite : Bool := false
  nonrepro : Bool := false
  trunc : Bool := false
  dropped : Nat := 0
  bytesTx : Nat := 0
  cvt : Num.Cvt := {}
  status : Code := 0
  /-- elements of results written at this module -/
  written : Nat := 0
  /-- elements of ring partials, or bytes, that have arrived -/
  arrived : Nat := 0
  /-- the record and the bitmap have been written, or wait at their target (R259) -/
  ended : Bool := false
  /-- nodes of trees that have sent in this collective, and what each had sent last before (R266) -/
  sentWas : List (Nat × Option Nat) := []
deriving DecidableEq, Repr

/-- The rake block and plan (Tables 10-13, 10-14). -/
structure Rake where
  err : Bool := false
  errCode : Code := 0
  valid : Bool := false
  planId : Word := 0
  coord : Word := 0
  elems : Word := 0
  lateDropped : Word := 0
  stale : Word := 0
  features : BitVec 256 := 0
  entries : Tab CollEntry := []
  members : Tab Nat := []
  coords : Tab Word := []
  links : Tab LinkExp := []
  queue : List Coll := []
  active : List Coll := []
  /-- the last instance whose sub(q) a node has sent, by 16,384 × entry + tree (R263) -/
  sent : Tab (Option Nat) := []
  /-- COUNT of the last launch of an entry -/
  counts : Tab Nat := []
  /-- COLL_DATA held: of a newer ATTEMPT until the own squash completes (R266), or of a collective not yet started here -/
  heldData : List Pkt := []
  /-- parts of late buffers that this module has used: address, bytes (R263, R288) -/
  lateSpans : List (Nat × Nat) := []
deriving DecidableEq, Repr

end Sys2Proof.Machine
end

