-- ==== Sys2Proof/Machine/State.lean ====
section
/-! DEFINITION. The state of the module, the reasons for which a command may stop, and the state after reset. -/

namespace Sys2Proof.Machine

/-- Why a run stops. No command of this manual stops the module: a violation is answered, recorded and logged (R11). -/
inductive Fault
  /-- raised by no meaning; kept so that the type is not empty. Safe. -/
  | unused
deriving DecidableEq, Repr

/-- Why a command has no meaning. -/
inductive Refusal
  /-- raised by an arm of exec whose command has no meaning yet. Safe. -/
  | notModelled (mnemonic : String)
deriving DecidableEq, Repr

/-- The EQ-FT9600 module. Memory controllers: 0 to 7 pan slices, 8 to 13 HBM4, 14 and 15 LPDDR6. -/
structure State where
  pending : List Instr := []
  cores : Tab Core := []
  mem : Mem := {}
  mcs : Tab Mc := []
  parts : Tab Part := []
  sync : Sync := {}
  fab : Fab := {}
  opt : Opt := {}
  rake : Rake := {}
  host : HostIf := {}
  pwr : Pwr := {}
  rst : Rst := {}
  mgmt : Mgmt := {}
  freeIdx : Nat := 0
  answer : Ans := .none
  out : List Out := []
deriving DecidableEq, Repr

/-- Right after the release of a full reset (Table 14-5 stage EARLY; log entry 1 for what has no stated value). -/
def State.reset : State := {}

end Sys2Proof.Machine
end

