-- ==== Sys2Proof/Machine/Ops.lean ====
section
/-! DEFINITION. Shared operations: answers, updates of one part of the state, log records and attention (R11, R12, R362,
R363, R366, R392), recording of first codes, free values. -/

namespace Sys2Proof.Machine

/-- The outcome of every command of this block: a next state. -/
abbrev Step := Host.Outcome State Fault Refusal

/-- A next state with an answer to the requester (log entry 3). -/
def done (a : Ans) (s : State) : Step := .next { s with answer := a }

/-- The command finds nothing to do: what it names is not there or not due (log entry 5). -/
def idle (s : State) : Step := done .idle s

/-- Served, no data. -/
def served (s : State) : Step := done (.ok []) s

/-- `x` if `b` holds, else nothing happens. -/
def guarded (b : Bool) (s : State) (x : Step) : Step := if b then x else idle s

def State.core (s : State) (c : Nat) : Core := s.cores.get {} c
def State.part (s : State) (p : Nat) : Part := s.parts.get {} p
def State.mc (s : State) (i : Nat) : Mc := s.mcs.get {} i
def State.fn (s : State) (f : Nat) : Fn := s.host.fns.get {} f
def State.mbox (s : State) (f m : Nat) : Mbox := s.host.mboxes.get {} (64 * f + m)
def State.link (s : State) (k : Nat) : OLink := s.opt.links.get {} k
def State.port (s : State) (k : Nat) : Port := s.fab.ports.get {} k

def State.modCore (s : State) (c : Nat) (f : Core → Core) : State := { s with cores := s.cores.mod {} c f }
def State.modPart (s : State) (p : Nat) (f : Part → Part) : State := { s with parts := s.parts.mod {} p f }
def State.modMc (s : State) (i : Nat) (f : Mc → Mc) : State := { s with mcs := s.mcs.mod {} i f }
def State.modFn (s : State) (f : Nat) (g : Fn → Fn) : State :=
  { s with host := { s.host with fns := s.host.fns.mod {} f g } }
def State.modMbox (s : State) (f m : Nat) (g : Mbox → Mbox) : State :=
  { s with host := { s.host with mboxes := s.host.mboxes.mod {} (64 * f + m) g } }
def State.modLink (s : State) (k : Nat) (g : OLink → OLink) : State :=
  { s with opt := { s.opt with links := s.opt.links.mod {} k g } }
def State.modPort (s : State) (k : Nat) (g : Port → Port) : State :=
  { s with fab := { s.fab with ports := s.fab.ports.mod {} k g } }
def State.modSnap (s : State) (p : Nat) (g : Snap → Snap) : State :=
  s.modPart p fun x => { x with snap := g x.snap }
def State.modStream (s : State) (p k : Nat) (g : Stream → Stream) : State :=
  s.modPart p fun x => { x with streams := x.streams.mod {} k g }

def State.mover (s : State) (c m : Nat) : Mover := (s.core c).mv.get {} m
def State.modMover (s : State) (c m : Nat) (g : Mover → Mover) : State :=
  s.modCore c fun k => { k with mv := k.mv.mod {} m g }
def State.stream (s : State) (p k : Nat) : Stream := (s.part p).streams.get {} k

/-- A fresh free value (log entry 2). -/
def State.free (s : State) : Word × State := (Config.free s.freeIdx, { s with freeIdx := s.freeIdx + 1 })

/-- Fabric nanoseconds (log entry 6). -/
def State.now (s : State) : Nat := s.sync.clock

/-- Core `c` belongs to partition `x` (R307). -/
def Part.holds (x : Part) (c : Nat) : Bool := x.valid && decide (x.first ≤ c) && decide (c < x.first + 2 ^ x.log2)

/-- The partition of a core. -/
def State.partOfCore (s : State) (c : Nat) : Option Nat := (List.range 8).find? fun p => (s.part p).holds c

/-- The cores of a partition. -/
def Part.cores (x : Part) : List Nat := if x.valid then (List.range (2 ^ x.log2)).map (x.first + ·) else []

/-- The partition of a requesting unit (Table 06-21): movers and cores have that of their core. -/
def State.partOfUnit (s : State) (u : Nat) : Option Nat :=
  if u < 0x40 then s.partOfCore (u / 2)
  else if u < 0x60 then s.partOfCore (u - 0x40)
  else if 0x71 ≤ u ∧ u ≤ 0x78 then (s.fn (u - 0x70)).bound
  else none

/-- The dispatch processor, the physical function and the hearth as requesters. -/
def unitDispatch : Nat := 0x61
def unitHost : Nat := 0x70
def unitHearth : Nat := 0x63

/-- R392, Table 15-12. -/
def severity (c : Code) : Nat :=
  if c ∈ [0x0B08, 0x0C03, 0x0C04, 0x0C07, 0x0D0C] then 3
  else if c ∈ [0x0701, 0x0702, 0x0703, 0x0704, 0x0706, 0x0707, 0x0708, 0x070B, 0x0806, 0x0903, 0x0904, 0x0905, 0x0B02,
      0x0B04, 0x0B05, 0x0B06, 0x0B07, 0x0C05, 0x0C06, 0x0D09, 0x0D0A, 0x0D10, 0x0D11] then 1
  else if c ∈ [0x0705, 0x0709, 0x070D, 0x0D08] then 0
  else 2

/-- Codes that raise management attention (R249, R330, R355, Table 15-11). -/
def raisesAttention (c : Code) : Bool :=
  decide (c ∈ [0x0701, 0x0702, 0x0706, 0x0707, 0x0708, 0x070B, 0x0B02, 0x0C03, 0x0C04, 0x0C05, 0x0C06, 0x0C07, 0x0D04,
    0x0D05, 0x0D06, 0x0D09, 0x0D0A, 0x0D0B, 0x0D0C, 0x0D10, 0x0D11])

/-- The vectors sent when `bit` of EVENTS goes from 0 to 1 (R298). -/
def evOut (f : Nat) (x : Fn) (bit : Nat) : List Out :=
  if !x.events.getLsbD bit && x.evEn then [.msix f x.evVector] else []

/-- An EVENTS bit of function `f` set. -/
def State.setEvent (s : State) (f bit : Nat) : State :=
  { s.modFn f (fun x => { x with events := x.events ||| BitVec.ofNat 5 (2 ^ bit) }) with
    out := s.out ++ evOut f (s.fn f) bit }

/-- The same in every function that `q` names. -/
def State.setEvents (s : State) (bit : Nat) (q : Nat → Fn → Bool) : State :=
  (List.range 9).foldl (fun t f => if q f (t.fn f) then t.setEvent f bit else t) s

/-- R366: a code that raises attention. -/
def State.attend (s : State) (c : Code) : State :=
  let g := s.mgmt
  let g' := if g.attention then { g with attnCount := min (g.attnCount + 1) 0xFFFF }
    else { g with attention := true, attnCode := c, attnCount := 0 }
  { s with mgmt := g' }.setEvents 2 fun _ x => x.session

/-- HEARTH_TIME, µs (Table 15-9). -/
def State.htime (s : State) : Word := BitVec.ofNat 64 ((s.now - s.mgmt.upAt) / 1000)

/-- The record of a log argument, as it stands now (Table 15-3). -/
def State.mkRec (s : State) (a : LogArg) : LogRec where
  index := s.mgmt.logNext
  ftime := if s.sync.ftState = .free ∧ !s.sync.loaded then 0 else s.sync.ft
  htime := s.htime
  code := a.code
  prov := a.prov
  remote := a.remote
  attention := raisesAttention a.code
  srcId := a.srcId.getD s.fab.id
  unit := a.unit
  part := a.part
  addr := a.addr
  detail := a.detail
  epoch := match a.part with
    | some p => (s.part p).epoch
    | none => 0
  boot := s.mgmt.boots

/-- R363: the hearth takes a record into its queue of 4,096, or drops and counts it. -/
def State.enqueue (s : State) (a : LogArg) : State :=
  if s.mgmt.queue.length < 4096 then
    { s with mgmt := { s.mgmt with queue := s.mgmt.queue ++ [s.mkRec a], logNext := s.mgmt.logNext + 1 } }
  else { s with mgmt := { s.mgmt with logDropped := s.mgmt.logDropped + 1, dropPend := s.mgmt.dropPend + 1 } }

/-- R11: a log record; attention where the code raises it (R366). -/
def State.log (s : State) (a : LogArg) : State :=
  let t := s.enqueue a
  if raisesAttention a.code then t.attend a.code else t

/-- R12: records of one cycle in the order of their subsystem byte, then of their requester. -/
def logBefore (a b : LogArg) : Bool :=
  let key (x : LogArg) := (x.code / 256, if x.remote then 1 else 0, x.srcId.getD 0, x.unit)
  let ka := key a
  let kb := key b
  if ka.1 ≠ kb.1 then decide (ka.1 ≤ kb.1)
  else if ka.2.1 ≠ kb.2.1 then decide (ka.2.1 ≤ kb.2.1)
  else if ka.2.2.1 ≠ kb.2.2.1 ∧ a.remote then decide (ka.2.2.1 ≤ kb.2.2.1)
  else decide (ka.2.2.2 ≤ kb.2.2.2)

def State.logAll (s : State) (l : List LogArg) : State := (sortBy logBefore l).foldl State.log s

/-- The first code since ERR was cleared: the new ERR and code. -/
def first (err : Bool) (old new : Code) : Code := if err then old else new

/-- A partition is asked to halt (R120, R138); the first code stands. -/
def State.askHalt (s : State) (p : Nat) (code : Code) (stream : Option Nat := none) : State :=
  s.modPart p fun x => if x.halted || x.haltReq.isSome then x else { x with haltReq := some (code, stream) }

/-- SERVICE.STATE (Tables 12-4, 14-5). -/
def serviceOf (stage : Nat) (restarting : Bool) : Nat :=
  if stage = 7 then 2
  else if stage = 6 then (if restarting then 3 else 1)
  else if stage < 2 then 0 else 3

def State.service (s : State) : Nat := serviceOf s.rst.stage s.rst.restarting

/-- A change of SERVICE.STATE sets EVENTS.SERVICE_CHANGE in every function and starts or breaks the time of unbroken
full service (R343, R353). Applied after a change of stage. -/
def State.serviceChange (before : Nat) (s : State) : State :=
  if s.service = before then s
  else
    let t := s.setEvents 0 fun _ _ => true
    { t with rst := { t.rst with fullSince := if t.service = 1 then some t.now else none } }

/-- PWR_STATUS.OP and DUTY of the ladder level (R326); the input-limit gate lowers duty to 4/8 (R328). -/
def Pwr.op (x : Pwr) : Nat := 7 - x.level
def Pwr.levelDuty (x : Pwr) : Nat := if x.level ≤ 7 then 8 else 15 - x.level
def Pwr.duty (x : Pwr) : Nat := if x.gated then min 4 x.levelDuty else x.levelDuty

/-- Domain `d` admits requests (Table 13-10). -/
def State.domainOn (s : State) (d : Nat) : Bool := s.pwr.on.getLsbD d

/-- What the timed machinery reads of the rest of the module. -/
def State.env (s : State) (c : Nat) : Env :=
  match s.partOfCore c with
  | some p => { c := c, jobSeed := (s.part p).jobSeed.toNat, fabId := s.fab.id, ft := s.sync.ft,
                committed := (s.part p).epoch, free := s.freeIdx }
  | none => { c := c, jobSeed := 0, fabId := s.fab.id, ft := s.sync.ft, committed := 0, free := s.freeIdx }

/-- The free bytes of a random draw of `n` words, and the state that has drawn them. -/
def State.draws : Nat → State → List Word × State
  | 0, s => ([], s)
  | n + 1, s =>
    let r := s.free
    let q := State.draws n r.2
    (r.1 :: q.1, q.2)

end Sys2Proof.Machine
end

