-- ==== Sys2Proof/Machine/Mailbox.lean ====
section
/-! DEFINITION. Mailboxes: completion (R302), the ends of SUBMITs (R313), host notifications (R314). -/

namespace Sys2Proof.Machine

/-- 64-bit words as bytes (R306). -/
def wordBytes (ws : List Nat) : List Byte := ws.flatMap fun w => leBytes w 8

/-- Argument word `n` of a running command (R306). -/
def Mbox.arg (x : Mbox) (n : Nat) : Nat := ((x.args[n]?).getD 0).toNat

/-- R302: a running command ends. Nothing happens at a mailbox that is not RUNNING. -/
def State.finish (s : State) (f m : Nat) (status : Code) (res : List Byte) (detail : Nat := 0) : State :=
  let x := s.mbox f m
  if x.state ≠ 1 then s
  else
    { s.modMbox f m (fun y => { y with
        bytes := y.bytes.setList 0 0x80 res, rlen := res.length, status := status,
        detail := BitVec.ofNat 64 detail, state := 2, begun := false, doneSeq := y.seq }) with
      out := s.out ++ if x.irq then [.msix f x.vector] else [] }

/-- R11, R317: a command refused: a log record, with the address that the command names, and the mailbox ends with the code. -/
def State.refuse (s : State) (f m : Nat) (code : Code) (detail : Nat := 0) (part : Option Nat := none)
    (addr : Option Nat := none) : State :=
  (s.log { code := code, unit := unitHost + f, part := part, addr := addr }).finish f m code [] detail

/-- The result of SUBMIT: EXECUTED and fabric time (Table 12-8). -/
def State.submitResult (s : State) (l : SubList) : List Byte := wordBytes [l.executed, s.sync.ft.toNat]

/-- R313: the end of one list of a stream; `detail` as the code's rule states. -/
def State.endList (s : State) (l : SubList) (code : Code) (detail : Nat) : State :=
  s.finish l.fn l.mbox code (s.submitResult l) detail

/-- Index of a stream's current command from its list start (R313). -/
def Stream.index (x : Stream) (l : SubList) : Nat := (x.pos - l.first) / 64

/-- R313: every list of stream `k` of partition `p` whose SUBMIT runs or waits ends; bit 32 of DETAIL where its command faulted. The
stream stands empty and keeps its position. -/
def State.endStream (s : State) (p k : Nat) (code : Code) (faulted : Bool) : State :=
  let x := s.stream p k
  let back := match x.lists with
    | l :: _ => l.again
    | [] => false
  let t := match x.lists.filter fun l => !l.again with
    | [] => s
    | l :: r =>
      let t := s.endList l code ((if back then 0 else x.index l) + if faulted then 2 ^ 32 else 0)
      r.foldl (fun u q => u.endList q code 0) t
  t.modStream p k fun y => { y with
    lists := [], started := false, wait := none, fired := false, toQueue := none, past := [], marks := [], redo := none
    reached := (0, 0) }

/-- R313: every stream of a partition. -/
def State.endStreams (s : State) (p : Nat) (code : Code) (fault : Option Nat) : State :=
  (List.range 64).foldl (fun t k => t.endStream p k code (fault == some k)) s

/-- The bytes of a notification record (R314). -/
def NoteRec.bytes (x : NoteRec) : List Byte :=
  wordBytes [x.tag + (if x.time then 2 ^ 32 else 0), x.at'.toNat]

/-- R314: a NOTIFY_WAIT that runs in mailbox `m` of function `f` takes up to MAX records, oldest first. -/
def State.deliverNotes (s : State) (f m : Nat) : State :=
  let x := s.mbox f m
  if x.state = 1 ∧ x.op = 0x0002 ∧ x.begun then
    let here := (s.fn f).notes.filter fun r => r.mbox == m
    if here.isEmpty then s
    else
      let n := min here.length (x.arg 0 / 2 ^ 32 % 256)
      let taken := here.take n
      let rest := (s.fn f).notes.filter (fun r => r.mbox != m) ++ here.drop n
      (s.modFn f fun y => { y with notes := rest }).finish f m 0
        (wordBytes [n] ++ taken.flatMap NoteRec.bytes)
  else s

/-- R314: a watch with DEST 3 fires: its record is queued, or dropped and counted. -/
def State.hostNote (s : State) (word3 : Word) (time : Bool) : State :=
  let w := word3.toNat
  let f := w % 16
  let m := w / 16 % 64
  let x := s.fn f
  if !x.session || decide (1024 ≤ x.notes.length) then
    (s.modFn f fun y => { y with notifyLost := y.notifyLost + 1 }).setEvent f 3
  else
    let r : NoteRec := { tag := w / 2 ^ 32, time := time, at' := s.sync.ft, mbox := m }
    let t := s.modFn f fun y => { y with notes := y.notes ++ [r] }
    { t with out := t.out ++ if w / 2 ^ 21 % 2 = 1 then [Out.msix f (w / 2 ^ 10 % 2048)] else [] }.deliverNotes f m

end Sys2Proof.Machine
end

