-- ==== Sys2Proof/Machine/SyncOps.lean ====
section
/-! DEFINITION. The sync unit's own operations: permission, addition, barriers, watches, fabric time (chapter 07). They act
on the sync unit alone and answer with the notifications that leave it; Machine/Notify.lean delivers those. -/

namespace Sys2Proof.Machine

/-- What a firing watch sends (Table 07-3), or an addition of one that was refused. `time` tells the cause: fabric time, else the
counter (R166). -/
inductive Note
  | wake (c : Nat)
  | stream (p k : Nat)
  | rake
  | remoteAdd (dst counter amount slot : Nat) (time : Bool) (view : Bool) (watched : Nat)
  | host (word3 : Word) (counter : Nat) (value : Word) (time : Bool)
  | refused (code : Code) (counter : Nat) (who : SWho)
deriving DecidableEq, Repr

/-- Operations that permission distinguishes (R160). -/
inductive SOp
  | read | set | add | watch
deriving DecidableEq, Repr

/-- KIND of Table 06-21 for a sync operation (log entry 20). -/
def SOp.kind : SOp → Nat
  | .read => 0
  | .set => 1
  | .add => 2
  | .watch => 0

def Sync.group (x : Sync) (i : Nat) : Group := x.groups.get {} (i / 256)

/-- R160: who may act on counter `i`. -/
def Sync.permit (x : Sync) (r : SWho) (op : SOp) (i : Nat) : Option Code :=
  let g := x.group i
  if !g.valid then some Err.counterOwner
  else if r.remote then
    (match op with
      | .add => if g.remAdd then none else some Err.counterRemote
      | .watch => if g.remWatch then none else some Err.counterRemote
      | _ => some Err.counterRemote)
  else if 0x70 ≤ r.unit ∧ r.unit ≤ 0x78 then
    (match op with
      | .read | .set => if g.host then none else some Err.counterRemote
      | _ => some Err.counterRemote)
  else if r.unit = 0x60 then none
  else match r.part with
    | some p => if g.part = p then none else some Err.counterOwner
    | none => none

/-- The VALID barrier whose four counters hold `i` (R170). -/
def Sync.barrierOf (x : Sync) (i : Nat) : Option Barrier :=
  (x.barriers.find? fun e => e.2.valid && decide (e.2.a ≤ i) && decide (i ≤ e.2.a + 3)).map (·.2)

/-- R115: the value of a counter in a view. -/
def Sync.val (x : Sync) (prov : Bool) (i : Nat) : Word := if prov then x.provs.get 0 i else x.counters.get 0 i

/-- R161, R170: what a read returns. -/
def Sync.read (x : Sync) (prov : Bool) (i : Nat) : Word :=
  match x.barrierOf i with
  | some b => if b.a = i then 0 else x.val prov i
  | none => x.val prov i

/-- One view of the counters with `f` applied at `i`. -/
def Sync.modView (x : Sync) (prov : Bool) (i : Nat) (f : Word → Word) : Sync :=
  if prov then { x with provs := x.provs.mod 0 i f } else { x with counters := x.counters.mod 0 i f }

/-- R115, R163: an operation that carries PROV moves the provisional value only, any other moves both. -/
def Sync.both (x : Sync) (prov : Bool) (f : Sync → Bool → Sync) : Sync := if prov then f x true else f (f x false) true

/-- R171, R172: an arrival judged against the round: the slot counter that takes the weight. -/
def Barrier.judge (b : Barrier) (round : Word) (slotVal : Nat → Word) (v : Word) : Except Code (Nat × Nat) :=
  let lo := v.toNat % 4
  let w := v.toNat / 4
  let r := round.toNat
  if w = 0 ∨ 8192 ≤ w then .error Err.barrierForm
  else if lo = (r + 2) % 4 then .error Err.barrierOverrun
  else if lo = (r + 3) % 4 then .error Err.barrierStale
  else
    let slot := b.a + 2 + (if lo = r % 4 then r % 2 else (r + 1) % 2)
    if b.n < (slotVal slot).toNat + w then .error Err.barrierExcess else .ok (slot, w)

/-- An arrival in one view: the weight is added. -/
def Sync.arrive (x : Sync) (b : Barrier) (prov : Bool) (v : Word) : Except Code (Sync × Nat) :=
  match b.judge (x.val prov (b.a + 1)) (x.val prov) v with
  | .error c => .error c
  | .ok (slot, w) => .ok (x.modView prov slot (· + BitVec.ofNat 64 w), slot)

/-- R173: the slot of the current round holds N. -/
def Sync.roundFull (x : Sync) (b : Barrier) (prov : Bool) : Bool :=
  (x.val prov (b.a + 2 + (x.val prov (b.a + 1)).toNat % 2)).toNat == b.n

/-- R173: the round completes: its slot becomes 0 and ROUND goes up by one. -/
def Sync.completeRound (x : Sync) (b : Barrier) (prov : Bool) : Sync :=
  (x.modView prov (b.a + 2 + (x.val prov (b.a + 1)).toNat % 2) fun _ => 0).modView prov (b.a + 1) (· + 1)

/-- Whether a watch's condition holds, and whether time is its cause: with both, the cause is the counter (R166). The compare is a
read (Table 07-1). -/
def Sync.holds (x : Sync) (w : Watch) : Option Bool :=
  let c := decide (w.value.toNat ≤ (x.read w.view w.counter).toNat)
  let t := decide (w.time.toNat ≤ x.ft.toNat)
  match w.cond with
  | 0 => if c then some false else none
  | 1 => if t then some true else none
  | _ => if c then some false else if t then some true else none

/-- An addition that waits to be applied. -/
structure Add where
  who : SWho
  i : Nat
  v : Word
deriving DecidableEq, Repr

/-- The requester that an armed watch stands for. -/
def Waiter.who (w : Waiter) (prov : Bool) : SWho :=
  match w with
  | .core c => { unit := 0x40 + c, part := none, prov := prov }
  | .stream p _ => { unit := unitDispatch, part := some p, prov := prov }
  | .part p => { unit := unitDispatch, part := some p, prov := prov }
  | .rake => { unit := 0x60, prov := prov }
  | .remote id => { unit := 0x68, remote := true, srcId := id, prov := prov }

/-- The requester of the addition that a firing watch makes. -/
def Watch.by (w : Watch) : SWho :=
  { w.who.who w.view with
    part := (w.who.who w.view).part.or w.part
    epochLo := match w.view, w.epoch with
      | true, some e => e.toNat % 4
      | _, _ => 0 }

/-- R162: additions of one fabric cycle in the order in which they are applied: this module's units by code, then remote modules. -/
def Add.before (a b : Add) : Bool :=
  let key (x : Add) : Nat := if x.who.remote then 256 + x.who.srcId else x.who.unit % 256
  decide (key a ≤ key b)

/-- R166, Table 07-3: what a firing watch sends: an addition here, or a notification. -/
def Watch.sends (w : Watch) (slot : Nat) (time : Bool) (value : Word) : List Add × List Note :=
  let lo := w.word3.toNat
  match w.dest with
  | 0 =>
    (match w.who with
      | .core c => ([], [.wake c])
      | .stream p k => ([], [.stream p k])
      | .rake => ([], [.rake])
      | _ => ([], []))
  | 1 => ([{ who := w.by, i := lo % 65536, v := BitVec.ofNat 64 (lo / 65536 % 2 ^ 32) }], [])
  | 2 => ([], [.remoteAdd (lo % 2 ^ 14) (lo / 65536 % 65536) (lo / 2 ^ 32) slot time w.view w.counter])
  | _ => ([], [.host w.word3 w.counter value time])

/-- The armed watches that `p` selects, tested: those that hold fire and disarm. -/
def Sync.fire (x : Sync) (p : Watch → Bool) : Sync × List Add × List Note :=
  x.watches.foldl (fun acc e =>
    match e.2 with
    | none => acc
    | some w =>
      if p w then
        match x.holds w with
        | none => acc
        | some time =>
          let r := w.sends e.1 time (x.read w.view w.counter)
          ({ acc.1 with watches := acc.1.watches.set none e.1 none }, acc.2.1 ++ r.1, acc.2.2 ++ r.2)
      else acc) (x, [], [])

/-- R162, R166: the watches on counter `i`, after an operation on it. -/
def Sync.testCounter (x : Sync) (i : Nat) : Sync × List Add × List Note :=
  x.fire fun w => w.cond != 1 && w.counter == i

/-- R166: the watches on fabric time, at a tick. -/
def Sync.testTime (x : Sync) : Sync × List Add × List Note := x.fire fun w => w.cond != 0

/-- Two tests one after the other. -/
def thenTest (r : Sync × List Add × List Note) (f : Sync → Sync × List Add × List Note) : Sync × List Add × List Note :=
  let q := f r.1
  (q.1, r.2.1 ++ q.2.1, r.2.2 ++ q.2.2)

/-- R173: rounds that complete, in one view, each tested on ROUND as one operation. -/
def Sync.rounds (b : Barrier) (prov : Bool) : Nat → Sync × List Add × List Note → Sync × List Add × List Note
  | 0, r => r
  | n + 1, r =>
    if r.1.roundFull b prov then
      Sync.rounds b prov n (thenTest (r.1.completeRound b prov, r.2.1, r.2.2) fun y => y.testCounter (b.a + 1))
    else r

/-- R172, R174: an arrival of `r`, judged in every view that it moves, each by itself; the committed view gives the answer. What only
the provisional view refuses is reported (log entry 102). -/
def Sync.arriveAll (x : Sync) (r : SWho) (b : Barrier) (v : Word) : Option Code × Sync × List Add × List Note :=
  let one (y : Sync) (view : Bool) : Option Code × Sync × List Add × List Note :=
    match y.arrive b view v with
    | .error c => (some c, y, [], [])
    | .ok (z, slot) => (none, Sync.rounds b view 2 (z.testCounter slot))
  if r.prov then one x true
  else
    let p := one x false
    let q := one p.2.1 true
    let n := match q.1 with
      | some c => if p.1 = some c then [] else [Note.refused c b.a r]
      | none => []
    (p.1, q.2.1, p.2.2.1 ++ q.2.2.1, p.2.2.2 ++ q.2.2.2 ++ n)

/-- R161 to R163: an addition by itself, with the watches it fires. -/
def Sync.add1 (x : Sync) (a : Add) : Option Code × Sync × List Add × List Note :=
  let plain := (x.both a.who.prov fun y pv => y.modView pv a.i (· + a.v)).testCounter a.i
  match x.permit a.who .add a.i with
  | some c => (some c, x, [], [])
  | none =>
    if a.who.prov && !(x.group a.i).epoch then (some Err.counterEpoch, x, [], [])
    else match x.barrierOf a.i with
      | some b => if b.a = a.i then x.arriveAll a.who b a.v else (none, plain)
      | none => (none, plain)

/-- MEM_FAULT_SRC word (Table 06-21). -/
def srcWord (id unit kind : Nat) (remote prov : Bool) (epochLo : Nat) (region : Option Nat) : Nat :=
  id % 2 ^ 14 + unit % 256 * 2 ^ 16 + kind * 2 ^ 24 + (if remote then 2 ^ 26 else 0) + (if prov then 2 ^ 27 else 0)
    + epochLo * 2 ^ 28 + (match region with
      | some r => r * 2 ^ 30 + 2 ^ 38
      | none => 0)

/-- Device address of a counter (R159). -/
def counterAddr (i : Nat) : Nat := 0x001000000000 + 8 * i

/-- SYNC_ERR_CODE and SYNC_FAULT_* capture the first refusal (Tables 07-14 to 07-16). -/
def Sync.capture (x : Sync) (selfId : Nat) (r : SWho) (kind i : Nat) (c : Code) : Sync :=
  if x.err then x
  else { x with
    err := true, errCode := c, faultAddr := counterAddr i
    faultSrc := srcWord (if r.remote then r.srcId else selfId) r.unit kind r.remote r.prov r.epochLo (some (i / 256)) }

/-- Additions that watches make are applied in turn, and those that they bring about in turn; a refused one is
reported. `n` bounds them: each comes from a watch that has disarmed. -/
def Sync.addAll : Nat → List Add → Sync × List Note → Sync × List Note
  | 0, _, r => r
  | _, [], r => r
  | n + 1, a :: l, r =>
    let q := r.1.add1 a
    let f := match q.1 with
      | some c => [Note.refused c a.i a.who]
      | none => []
    Sync.addAll n (l ++ q.2.2.1) (q.2.1, r.2 ++ f ++ q.2.2.2)

/-- What follows an operation that fired watches. -/
def Sync.follow (r : Sync × List Add × List Note) : Sync × List Note :=
  Sync.addAll (r.1.watches.length + r.2.1.length + 1) (sortBy Add.before r.2.1) (r.1, r.2.2)

/-- R161: an addition and all that follows from it. -/
def Sync.add (x : Sync) (a : Add) : Option Code × Sync × List Note :=
  let r := x.add1 a
  (r.1, Sync.follow r.2)

/-- R161, R163, R170: a SET. -/
def Sync.put (x : Sync) (r : SWho) (i : Nat) (v : Word) : Except Code (Sync × List Note) :=
  match x.permit r .set i with
  | some c => .error c
  | none =>
    if r.prov && !(x.group i).epoch then .error Err.counterEpoch
    else if (x.barrierOf i).isSome && r.unit != unitDispatch then .error Err.barrierForm
    else .ok (Sync.follow ((x.both r.prov fun y pv => y.modView pv i fun _ => v).testCounter i))

/-- Owner of a watch slot (Table 07-2). -/
def Sync.owns (x : Sync) (r : SWho) (slot : Nat) : Bool :=
  if slot < 3584 then
    (match r.part with
      | some p =>
        let sp := x.splits.get {} p
        !r.remote && r.unit == unitDispatch && decide (sp.first ≤ slot) && decide (slot < sp.first + sp.count)
      | none => false)
  else if slot < 3808 then !r.remote && r.unit == 0x60
  else if slot < 4064 then r.remote
  else !r.remote && r.unit == 0x40 + (slot - 4064)

/-- R165: a watch entry is malformed. -/
def Sync.watchBad (x : Sync) (slot : Nat) (w0 w3 : Word) : Bool :=
  let a := w0.toNat
  let dest := a / 16 % 4
  a % 4 == 3 || a / 2 ^ 22 != 0 || (dest == 0 && decide (slot < 4064))
    || (a / 8 % 2 == 1 && !(x.group (a / 64 % 65536)).epoch)
    || (dest == 1 && w3.toNat / 2 ^ 48 != 0) || (dest == 2 && w3.toNat / 2 ^ 14 % 4 != 0)
    || (dest == 3 && (w3.toNat / 2 ^ 22 % 2 ^ 10 != 0 || decide (8 < w3.toNat % 16)))

/-- The watch of an entry. -/
def mkWatch (w0 w1 w2 w3 : Word) (who : Waiter) (epoch : Option Word) (part : Option Nat) : Watch where
  cond := w0.toNat % 4
  view := w0.toNat / 8 % 2 == 1
  dest := w0.toNat / 16 % 4
  counter := w0.toNat / 64 % 65536
  value := w1
  time := w2
  word3 := w3
  who := who
  epoch := epoch
  part := part

/-- R166: a watch armed in a free slot is tested at once. -/
def Sync.armAt (x : Sync) (slot : Nat) (w : Watch) : Sync × List Note :=
  match x.holds w with
  | none => ({ x with watches := x.watches.set none slot (some w) }, [])
  | some time =>
    let r := w.sends slot time (x.read w.view w.counter)
    Sync.follow (x, r.1, r.2)

/-- R164, R165: a watch entry written. The watched counter must be one the requester may act on (R160). -/
def Sync.arm (x : Sync) (r : SWho) (slot : Nat) (w0 w1 w2 w3 : Word) (who : Waiter)
    (epoch : Option Word) : Except Code (Sync × List Note) :=
  if !x.owns r slot then .error Err.watchOwner
  else if x.watchBad slot w0 w3 then .error Err.watchForm
  else if w0.toNat / 4 % 2 = 0 then .ok ({ x with watches := x.watches.set none slot none }, [])
  else if (x.watches.get none slot).isSome then .error Err.watchFull
  else match (if w0.toNat % 4 = 1 then none else x.permit r .watch (w0.toNat / 64 % 65536)) with
    | some c => .error c
    | none => .ok (x.armAt slot (mkWatch w0 w1 w2 w3 who epoch r.part))

/-- The lowest free slot from `first` on, of `count`. -/
def Sync.freeSlot (x : Sync) (first count : Nat) : Option Nat :=
  ((List.range count).map (first + ·)).find? fun i => (x.watches.get none i).isNone

/-- Armed slots (Table 07-14). -/
def Sync.armed (x : Sync) : Nat := x.watches.length

/-- The watches for which `p` holds disarmed. -/
def Sync.cancel (x : Sync) (p : Nat → Watch → Bool) : Sync :=
  { x with watches := x.watches.filter fun e => match e.2 with
      | some w => !p e.1 w
      | none => false }

/-- R115, R174: at COMMIT the committed values of partition `p`'s epoch-scoped counters take the provisional ones. -/
def inEpochGroup (x : Sync) (p : Nat) (i : Nat) : Bool :=
  let g := x.group i
  g.valid && g.epoch && g.part == p

/-- Values of `a` on the counters that `q` names, those of `b` elsewhere. -/
def mergeCounters (q : Nat → Bool) (a b : Tab Word) : Tab Word :=
  (a.filter fun e => q e.1).foldl (fun t e => t.set 0 e.1 e.2) (b.filter fun e => !q e.1)

def Sync.commit (x : Sync) (p : Nat) : Sync :=
  { x with counters := mergeCounters (inEpochGroup x p) x.provs x.counters }

/-- R14: provisional watches that `q` selects become committed work. -/
def Sync.committedWatches (x : Sync) (q : Watch → Bool) : Sync :=
  { x with watches := x.watches.mapVals fun _ o => o.map fun w => if w.view && q w then { w with view := false, epoch := none } else w }

/-- R115: a squash restores the provisional values. -/
def Sync.restoreProv (x : Sync) (p : Nat) : Sync :=
  { x with provs := mergeCounters (inEpochGroup x p) x.counters x.provs }

/-- The watches whose counters an indivisible change of many counters may have satisfied. -/
def Sync.testAll (x : Sync) (q : Nat → Bool) : Sync × List Note :=
  Sync.follow (x.fire fun w => w.cond != 1 && q w.counter)

/-- SYNC_GROUPg (Table 07-20). -/
def groupOf (v : Nat) : Group where
  valid := bit v 0
  part := bits v 3 1
  epoch := bit v 4
  remAdd := bit v 5
  remWatch := bit v 6
  host := bit v 7

def Group.word (g : Group) : Nat :=
  (if g.valid then 1 else 0) + g.part * 2 + (if g.epoch then 16 else 0) + (if g.remAdd then 32 else 0)
    + (if g.remWatch then 64 else 0) + (if g.host then 128 else 0)

/-- BARRIERb (Table 07-21). -/
def barrierOfWord (v : Nat) : Barrier := { a := bits v 15 0, n := bits v 39 16, valid := bit v 40 }
def Barrier.word (b : Barrier) : Nat := b.a + b.n * 2 ^ 16 + (if b.valid then 2 ^ 40 else 0)

/-- WATCH_SPLITp (Table 07-22). -/
def splitOf (v : Nat) : Split := { first := bits v 11 0, count := bits v 23 12 }
def Split.word (x : Split) : Nat := x.first + x.count * 2 ^ 12

/-- R183: a barrier entry with VALID = 1 for partition `p`, under the groups `gs` and beside the other entries. -/
def barrierOk (gs : Tab Group) (others : Tab Barrier) (p : Nat) (v : Nat) : Bool :=
  let b := barrierOfWord v
  !b.valid ||
    (b.n != 0 && b.a % 4 == 0 && (gs.get {} (b.a / 256)).valid
      && (gs.get {} (b.a / 256)).part == p
      && others.all fun e => !e.2.valid || decide (e.2.a + 3 < b.a) || decide (b.a + 3 < e.2.a))

/-- R183: a split that overlaps no other partition's slots and stays below 3,584. -/
def splitOk (xs : Tab Split) (p : Nat) (v : Nat) : Bool :=
  let n := splitOf v
  decide (n.first + n.count ≤ 3584) &&
    (n.count == 0 || xs.all fun e => e.1 == p || e.2.count == 0 || decide (e.2.first + e.2.count ≤ n.first)
      || decide (n.first + n.count ≤ e.2.first))

/-- FT_CTRL (Table 07-18). -/
def ftCtrlOf (v : Nat) : FtCtrl where
  enable := bit v 0
  root := bit v 1
  parentLink := bits v 7 2
  altLink := bits v 13 8
  altEn := bit v 14

def FtCtrl.word (x : FtCtrl) : Nat :=
  (if x.enable then 1 else 0) + (if x.root then 2 else 0) + x.parentLink * 4 + x.altLink * 256
    + (if x.altEn then 2 ^ 14 else 0)

/-- Table 07-10: FT_CTRL enables a follower, or changes it. `depth` is open (log entry 21). -/
def Sync.ftWrite (x : Sync) (v depth : Nat) : Sync :=
  let c := ftCtrlOf v
  let y := { x with ctrl := c }
  if c.root then { y with ftState := .free, ftLink := 0, ftDepth := 0, exch := none }
  else if c.enable then
    if x.ctrl.enable && !x.ctrl.root && x.ctrl.parentLink == c.parentLink then y
    else { y with ftState := .acquire, ftLink := c.parentLink, ftDepth := depth % 21, goodEx := 0, exch := none }
  else { y with exch := none, ftState := .free }

/-- R175: one nanosecond of the fabric clock. A FREE unit that has not been loaded holds 0; slewing is at most 200
ppm: one nanosecond in 5,000. HOLDOVER runs at the last trained frequency (R177). -/
def Sync.tick (x : Sync) : Sync :=
  let y := { x with clock := x.clock + 1 }
  if x.ftState = .free ∧ !x.loaded then y
  else if x.ftState = .holdover then
    let g := x.frac + x.rate
    if 1000000 ≤ g then { y with ft := x.ft + 2, frac := g - 1000000 }
    else if g ≤ -1000000 then { y with frac := g + 1000000 }
    else { y with ft := x.ft + 1, frac := g }
  else if y.clock % 5000 = 0 ∧ x.slew ≠ 0 then
    if 0 < x.slew then { y with ft := x.ft + 2, slew := x.slew - 1 }
    else { y with slew := x.slew + 1 }
  else { y with ft := x.ft + 1 }

/-- R176: offset of the parent, rounded toward zero. -/
def ftOffsetOf (t1 t2 t3 t4 : Word) : Int :=
  (((t2.toInt - t1.toInt) - (t4.toInt - t3.toInt)).tdiv 2)

/-- R176: one-way flight, rounded toward zero as the offset is. -/
def ftDelayOf (t1 t2 t3 t4 : Word) : Int :=
  (((t4.toInt - t1.toInt) - (t3.toInt - t2.toInt)).tdiv 2)

/-- R177: a frequency that an exchange trains, within ±200 ppm (R175): which one is open (log entry 103). -/
def ftRateOf (f : Word) : Int := (f.toNat % 401 : Nat) - 200

/-- R177: the child's unit after an exchange with offset `o`, delay `d` and trained frequency `rate`. The first one after the full
reset steps the time. -/
def Sync.exchange (x : Sync) (o d rate : Int) : Sync :=
  let y := { x with ftOffset := BitVec.ofInt 32 o, ftDelay := d, exch := none }
  let good := if o.natAbs ≤ 5 then x.goodEx + 1 else 0
  let fix := { y with rate := rate, frac := 0 }
  let z := if x.stepped then { fix with slew := o }
    else { fix with ft := x.ft + BitVec.ofInt 64 o, stepped := true, loaded := true }
  match x.ftState with
  | .free => y
  | .acquire => { z with goodEx := good, ftState := if 8 ≤ good then .locked else .acquire, locked := x.locked || decide (8 ≤ good) }
  | .locked =>
    if 1000 < o.natAbs then { fix with slew := o, goodEx := 0, ftState := .acquire }
    else { fix with slew := o, goodEx := good }
  | .holdover => { z with goodEx := good, ftState := .acquire }

/-- R179: a short form of fabric time widened against local time. -/
def widen (s : Nat) (now : Word) : Word :=
  let d := (s + 2 ^ 32 - now.toNat % 2 ^ 32) % 2 ^ 32
  if d < 2 ^ 31 then now + BitVec.ofNat 64 d else now - BitVec.ofNat 64 (2 ^ 32 - d)

/-- R179: serial-number comparison at 16 bits. -/
def later (a b : Nat) : Bool :=
  let d := (a + 2 ^ 16 - b % 2 ^ 16) % 2 ^ 16
  decide (1 ≤ d) && decide (d ≤ 2 ^ 15 - 1)

end Sys2Proof.Machine
end

