-- ==== Sys2Proof/Machine/Endpoint.lean ====
section
/-! DEFINITION. Packets, the router's choice of output, and the transmit side of the endpoint (R186 to R212, R217). -/

namespace Sys2Proof.Machine

namespace Err
def fenced : Code := 0x0601
def noRoute : Code := 0x0602
def routeHops : Code := 0x0603
def datelineTwice : Code := 0x0604
def peerUnreachable : Code := 0x0605
def peerReset : Code := 0x0606
def contextFull : Code := 0x0607
def hdrForm : Code := 0x0608
def mcastForm : Code := 0x0609
def routeLoad : Code := 0x060A
def fencedMember : Code := 0x0805
def drainFailed : Code := 0x0904
end Err

/-- Control form (R186). -/
def Pkt.ctl (x : Pkt) : Bool := decide (8 ≤ x.ty)

/-- Header word 0 (Table 08-2). -/
def Pkt.word0 (x : Pkt) : Nat :=
  x.dst + x.src * 2 ^ 16 + x.cls * 2 ^ 30 + x.vc * 2 ^ 32 + x.ty * 2 ^ 33 + x.prov.toNat * 2 ^ 37 + x.epochLo * 2 ^ 38
    + x.len * 2 ^ 40 + x.hops * 2 ^ 54 + x.mcast.toNat * 2 ^ 58 + x.retx.toNat * 2 ^ 59 + x.syn.toNat * 2 ^ 60
    + x.rsvd * 2 ^ 61

/-- Header word 1 (Tables 08-3, 08-4). -/
def Pkt.word1 (x : Pkt) : Nat :=
  if x.ctl then x.seq + x.ftime * 2 ^ 16 + x.aux * 2 ^ 48
  else x.seq + x.offset / 16 * 2 ^ 16 + x.offset % 16 * 2 ^ 56 + x.rsvd1 * 2 ^ 60

/-- Packet types (Table 08-5). -/
def tyWrite : Nat := 1
def tyReadReq : Nat := 2
def tyReadResp : Nat := 3
def tyAccumulate : Nat := 4
def tyCollData : Nat := 5
def tySync : Nat := 8
def tyAck : Nat := 9
def tyNak : Nat := 10
def tyMgmt : Nat := 11

/-- Bytes that follow the header on the link: none in a READ_REQ. -/
def Pkt.body (x : Pkt) : Nat := if x.ty = tyReadReq then 0 else x.len

/-- Bytes on the link, padding included (R191). -/
def Pkt.wire (x : Pkt) : Nat := 16 + (x.body + 15) / 16 * 16

/-- Chunks on the link. -/
def Pkt.chunks (x : Pkt) : Nat := (x.wire + 63) / 64

/-- R187: the header is well formed (Table 08-5). -/
def Pkt.formOk (x : Pkt) : Bool :=
  let cls := match x.ty with
    | 1 | 2 | 3 => x.cls == 2 || x.cls == 3
    | 4 => x.cls != 0
    | 5 => x.cls == 1 || x.cls == 3 || (x.cls == 0 && (x.payload.getD 14 0).toNat % 16 == 4)
    | 8 => x.cls == 0
    | 9 | 10 => x.cls == 1
    | 11 => x.cls == 0 || x.cls == 3
    | _ => false
  let mc := !x.mcast || x.ty == 1 || x.ty == 5 || x.ty == 8 || x.ty == 11
  cls && mc && decide (x.len ≤ 8192) && (x.cls != 0 || decide (16 + x.body ≤ 256)) && x.rsvd == 0
    && (x.ctl || x.rsvd1 == 0) && (x.ty != tyAck || decide (x.aux < 2 ^ 14)) && (if x.mcast then decide (x.dst < 2 ^ 12) else decide (x.dst < 2 ^ 14))

/-- Data lanes of a direction, and its state: 0 DOWN, 2 UP, 3 DEGRADED (R229). -/
def dirState (trained : Bool) (k : Nat) (map : List Nat) : Nat :=
  if !trained || decide (map.length < k) then 0 else if map.length = 8 then 2 else 3

/-- MIN_LANES as it is taken (Table 09-11). -/
def Opt.minK (x : Opt) : Nat := if 4 ≤ x.minLanes ∧ x.minLanes ≤ 8 then x.minLanes else 4

/-- LINK_STATUSk.STATE: 0 DOWN, 1 HELD, 2 UP, 3 DEGRADED (R214, R229, R246, R373). The lower of two states is DOWN before HELD
before DEGRADED before UP (log entry 31). -/
def State.linkState (s : State) (k : Nat) : Nat :=
  let l := s.link k
  let a := dirState l.trained s.opt.minK l.txMap
  let b := dirState l.trained s.opt.minK l.rxMap
  if a = 0 ∨ b = 0 then 0
  else if l.mismatch ∨ (s.port k).encEn ≠ l.peerEnc
      ∨ ((s.port k).encEn ∧ (!l.keyTx ∨ !l.keyRx ∨ l.rekey ≠ 0 ∨ 2 ^ 48 ≤ l.groupsTx)) then 1
  else if a = 3 ∨ b = 3 then 3 else 2

/-- R198: a port is up. -/
def State.up (s : State) (k : Nat) : Bool := decide (2 ≤ s.linkState k)

/-- Chunks of a class and VC that the peer's buffer reserves (Table 08-9). -/
def reservedChunks (cv : Nat) : Nat := if cv < 2 then 128 else 32

/-- Chunks of the shared pool in use: those of classes 1 to 3 beyond their reserved shares (R195). -/
def Port.poolUsed (x : Port) : Nat :=
  ((List.range 6).map fun i => x.used.get 0 (i + 2) - 32).foldl (· + ·) 0

/-- Credits free downstream for a class and VC (R198). -/
def Port.credits (x : Port) (cv : Nat) : Nat :=
  (reservedChunks cv - x.used.get 0 cv) + if cv < 2 then 0 else 1600 - x.poolUsed

/-- Ports set in a mask. -/
def portsOf (m : BitVec 36) : List Nat := (List.range 36).filter fun k => m.getLsbD k

/-- R198: the port among `ks` for a class and VC; ties go to the lowest number. -/
def State.pickPort (s : State) (ks : List Nat) (cls vc : Nat) : Option Nat :=
  let up := ks.filter s.up
  if cls = 0 then up.head?
  else
    let score (k : Nat) : Nat := (s.port k).credits (2 * cls + vc) * (s.link k).txMap.length
    up.foldl (fun best k => match best with
      | none => some k
      | some b => if score b < score k then some k else best) none

/-- Where a unicast packet goes. -/
inductive Way
  | toLocal
  | link (k : Nat)
  | drop (c : Code)
deriving DecidableEq, Repr

/-- R198, R199, R211: the output of a unicast packet. -/
def State.way (s : State) (x : Pkt) : Way :=
  let e := s.fab.routes.get {} x.dst
  if e.fence then .drop Err.fenced
  else if !e.valid then .drop Err.noRoute
  else if e.here then .toLocal
  else
    match (s.pickPort (portsOf e.primary) x.cls x.vc).or (s.pickPort (portsOf e.alt) x.cls x.vc) with
    | none => .drop Err.noRoute
    | some k =>
      if x.hops = 15 then .drop Err.routeHops
      else if x.vc = 1 ∧ e.dateline.getLsbD k then .drop Err.datelineTwice
      else .link k

/-- A packet put into the output queue of a link, one hop on (R199). `home`: its entry in an input buffer. -/
def State.toPort (s : State) (k : Nat) (dateline : Bool) (x : Pkt) (home : Option Nat := none) : State :=
  let y := { x with hops := x.hops + 1, vc := if dateline then 1 else x.vc }
  s.modPort k fun p => { p with queues := p.queues.mod [] (2 * y.cls + y.vc) fun q => q ++ [{ pkt := y, home := home }] }

/-- `n` 16-byte units leave a class and VC of an input buffer, the oldest first: the chunks left, and how many are free. -/
def unitsLeave : Nat → List Nat → List Nat × Nat
  | _, [] => ([], 0)
  | n, h :: l =>
    if h ≤ n then
      let r := unitsLeave (n - h) l
      (r.1, r.2 + 1)
    else ((h - n) :: l, 0)

/-- R195: units leave the input buffer of port `k`; the credits of the chunks that are free are due. -/
def State.leaveBuf (s : State) (k cv n : Nat) : State :=
  let r := unitsLeave n ((s.port k).inbuf.get [] cv)
  (s.modPort k fun p => { p with inbuf := p.inbuf.set [] cv r.1 }).modLink k fun l => { l with
    freed := l.freed.mod 0 cv fun v => (v + r.2) % 2048 }

/-- A copy of inbound packet `id` has left, and with the last one the packet (R195, R208). -/
def State.copyLeft (s : State) (id : Nat) : State :=
  match s.fab.inbound.find? fun e => e.id == id with
  | none => s
  | some e =>
    if 2 ≤ e.copies then { s with fab := { s.fab with
      inbound := s.fab.inbound.map fun x => if x.id = id then { x with copies := x.copies - 1 } else x } }
    else
      ({ s with fab := { s.fab with inbound := s.fab.inbound.filter fun x => x.id != id } } : State).leaveBuf e.port e.cv e.units

/-- A unit of a copy of inbound packet `id` has been sent; `last`: the copy ends. -/
def State.unitLeft (s : State) (id : Nat) (last : Bool) : State :=
  match s.fab.inbound.find? fun e => e.id == id with
  | none => s
  | some e =>
    if e.whole ∨ last then (if last then s.copyLeft id else s)
    else ({ s with fab := { s.fab with
      inbound := s.fab.inbound.map fun x => if x.id = id then { x with units := x.units - 1 } else x } } : State).leaveBuf e.port e.cv 1

/-- The local copy of a packet has been taken, or dropped: it leaves the input buffer. -/
def State.takenIn (s : State) (x : Pkt) : State :=
  match s.fab.inbound.find? fun e => e.here && e.pkt == x with
  | none => s
  | some e =>
    ({ s with fab := { s.fab with
      inbound := s.fab.inbound.map fun y => if y.id = e.id then { y with here := false } else y } } : State).copyLeft e.id

/-- A class-0 packet of this module waits at the source for a token (R212). -/
def State.toTokens (s : State) (k : Nat) (x : Pkt) : State :=
  s.modPort k fun p => { p with c0wait := p.c0wait ++ [x] }

/-- Log record of a fabric event (R217): the target offset of a memory-form packet, 0 of a control-form one. -/
def State.fabLog (s : State) (c : Code) (x : Pkt) : State :=
  s.log { code := c, unit := 0x69, srcId := some x.src, remote := x.src != s.fab.id,
          addr := some (if x.ctl then 0 else x.offset), prov := x.prov }

/-- FAB_ERR_CODE and FAB_FAULT_HDR capture the first, each since ERR was cleared (Tables 08-17 to 08-19). -/
def State.fabErr (s : State) (c : Code) (x : Pkt) : State :=
  let f := s.fab
  let g := if f.hdrSet then f else { f with hdrSet := true, hdr0 := BitVec.ofNat 64 x.word0, hdr1 := BitVec.ofNat 64 x.word1 }
  { s with fab := { g with err := true, errCode := first f.err f.errCode c } }

/-- A packet dropped: counted, captured and logged (R198, R217). -/
def State.fabDrop (s : State) (c : Code) (x : Pkt) : State :=
  ({ s with fab := { s.fab with drops := s.fab.drops + 1 } }.fabErr c x).fabLog c x

/-- ORIG_DST, MC and FENCED_ID of a NAK (Table 08-7). -/
def nakPayload (x : Pkt) (fencedId : Nat) : List Byte :=
  leBytes x.dst 2 ++ [if x.mcast then 1 else 0, 0] ++ leBytes fencedId 2 ++ List.replicate 10 0

/-- A NAK for packet `x` (R190). -/
def mkNak (self : Nat) (x : Pkt) (c : Code) (fencedId : Nat := 0) : Pkt where
  dst := x.src
  src := self
  cls := 1
  ty := tyNak
  len := 16
  seq := x.seq
  aux := c
  payload := nakPayload x fencedId

/-- An ACK of receive half `key` (R204, R205). -/
def mkAck (self : Nat) (key : RxKey) (seq : Nat) (held : Bool) : Pkt where
  dst := match key with
    | .uni id => id
    | .group id _ => id
  src := self
  cls := 1
  ty := tyAck
  len := 0
  seq := seq
  aux := (match key with
    | .uni _ => 0
    | .group _ g => g + 2 ^ 12) + if held then 2 ^ 13 else 0

/-- A refusal of a descriptor of mover `m` of core `c`, or of its addition at another module (R138, R169): it stops, the mover
records the code and the partition is to halt. -/
def State.moverRefused (s : State) (c m seq : Nat) (code : Code) : State :=
  if (s.mover c m).active.any fun a => a.seq == seq && !a.stopped then
    let t := s.modMover c m fun x => { x with
      err := true, errCode := first x.err x.errCode code
      active := x.active.map fun a => if a.seq = seq then { a with stopped := true } else a }
    match s.partOfCore c with
    | some p => t.askHalt p code
    | none => t
  else if (s.mover c m).signals.contains seq then
    let t := s.modMover c m fun x => { x with
      err := true, errCode := first x.err x.errCode code, signals := x.signals.filter (· != seq) }
    match s.partOfCore c with
    | some p => t.askHalt p code
    | none => t
  else s

/-- The addition of a completed descriptor at another module is performed (R109). -/
def State.signalDone (s : State) (c m seq : Nat) : State :=
  if (s.mover c m).signals.contains seq then s.modMover c m fun x => { x with signals := x.signals.filter (· != seq) } else s

/-- Operations that reduce (Table 10-3). -/
def CollEntry.reduces (e : CollEntry) : Bool := e.op == 0 || e.op == 2 || e.op == 4 || e.op == 7

/-- One packet of a collective completes: performed, or refused with `code`; a multicast carries its counts (R210,
R259). -/
def State.collDone (s : State) (part entry inst : Nat) (code : Code) (mc : Option (Nat × Nat × Nat)) : State :=
  let e := s.rake.entries.get {} entry
  let f (x : Coll) : Coll :=
    if x.part = part ∧ x.rc.coll = entry ∧ x.rc.inst = inst then
      let z := match mc with
        | some (d, n, u) => { x with delivered := max x.delivered d, fenced := max x.fenced n, unreachable := max x.unreachable u }
        | none => x
      if code = 0 ∨ x.status ≠ 0 then z
      else if code = Err.fenced ∧ e.reduces then
        (if e.late = 0 then { z with status := Err.fencedMember } else { z with nonrepro := true })
      else { z with status := code }
    else x
  { s with rake := { s.rake with active := s.rake.active.map f } }

/-- R294: a code of 0x0903 to 0x0905: recorded, counted, logged. -/
def State.snapEvent (s : State) (p : Nat) (code : Code) (detail : Nat := 0) : State :=
  (s.modSnap p fun x => { x with
    err := true, errCode := first x.err x.errCode code, notComplete := x.notComplete + 1 }).log
      { code := code, unit := 0x62, part := some p, detail := detail }

/-- The running drain stops without a whole snapshot: the agreement value is 1 (R278, R282, R284). -/
def State.drainStop (s : State) (p : Nat) : State :=
  s.modSnap p fun x =>
    match x.drain with
    | some d => { x with
        drain := none, sends := [], stalling := false, agree := some { epoch := d.epoch, good := false, slot := some d.slot, base := d.base } }
    | none => x

/-- R284: a refusal met by a drain write stops the drain. -/
def State.drainFail (s : State) (p : Nat) (code : Code) : State :=
  if (s.part p).snap.drain.isSome then (s.drainStop p).snapEvent p Err.drainFailed code else s

/-- R217: a packet of the sync unit, the dispatch processor or the hearth controller that is refused away from here: a refusal at its
source too. The other units record theirs as they complete. -/
def State.refusedFar (s : State) (who : TxOrigin) (code : Code) (x : Pkt) : State :=
  match who with
  | .none | .sync _ => (if code / 256 = 6 then s.fabErr code x else s).fabLog code x
  | _ => s

/-- A packet is complete for the unit that asked for it. `mc`: the members of a multicast that acknowledged, that are fenced, and that
could not be reached (R210). -/
def State.txDone (s : State) (who : TxOrigin) (code : Code) (mc : Option (Nat × Nat × Nat) := none) : State :=
  match who with
  | .none | .sync _ =>
    match mc with
    | some (d, f, u) => { s with fab := { s.fab with
        report := some { who := who, code := code, delivered := d, fenced := f, unreachable := u } } }
    | none => s
  | .mover c m seq => if code = 0 then s.signalDone c m seq else s.moverRefused c m seq code
  | .rake p e i => s.collDone p e i code mc
  | .drain p => if code = 0 then s else s.drainFail p code
  | .serve p client =>
    if code = 0 then s
    else
      match (s.part p).snap.serves.find? fun v => v.client == client with
      | some v => (s.modSnap p fun x => { x with serves := x.serves.filter fun u => u.client != client }).refuse v.fn v.mbox
          code (part := some p)
      | none => s

/-- Key of a packet's transmit half. -/
def Pkt.txKey (x : Pkt) : TxKey := if x.mcast then .group (x.dst % 2 ^ 12) else .uni x.dst

/-- Key of a packet's receive half. -/
def Pkt.rxKey (x : Pkt) : RxKey := if x.mcast then .group x.src (x.dst % 2 ^ 12) else .uni x.src

/-- Contexts in use: distinct keys (R200). A unicast key serves both halves. -/
def Fab.contexts (x : Fab) : Nat :=
  x.tx.length + (x.rx.filter fun r => match r.key with
    | .uni id => !(x.tx.any fun t => t.key == .uni id)
    | .group .. => true).length

def Fab.txOf (x : Fab) (k : TxKey) : Option TxHalf := x.tx.find? fun t => t.key == k
def Fab.rxOf (x : Fab) (k : RxKey) : Option RxHalf := x.rx.find? fun t => t.key == k
def State.modTx (s : State) (k : TxKey) (g : TxHalf → TxHalf) : State :=
  { s with fab := { s.fab with tx := s.fab.tx.map fun t => if t.key = k then g t else t } }
def State.modRx (s : State) (k : RxKey) (g : RxHalf → RxHalf) : State :=
  { s with fab := { s.fab with rx := s.fab.rx.map fun t => if t.key = k then g t else t } }

/-- Bytes of control-form packets in the retry store (R206). -/
def Fab.retry (x : Fab) : Nat :=
  (x.tx.flatMap fun t => t.out).foldl (fun n o => n + if o.pkt.ctl then 16 + o.pkt.len else 0) 0

/-- R201, R206: there is room for one more packet. -/
def State.room (s : State) (t : TxHalf) (x : Pkt) : Bool :=
  decide (t.out.length < 64)
    && decide (t.out.foldl (fun n o => n + o.pkt.len) 0 + x.len ≤ 512 * 1024)
    && (!x.ctl || decide (s.fab.retry + 16 + x.len ≤ 2 ^ 21))

/-- Members of the group of a half; 1 for unicast. -/
def State.membersOf (s : State) (k : TxKey) : Nat :=
  match k with
  | .uni _ => 1
  | .group g => (s.fab.groups.get {} g).members

/-- Outstanding packets that `p` selects leave the context; reads that have not been answered are kept for their
READ_RESP. RETRY_MAX counts anew once the oldest has left (R206). -/
def State.release (s : State) (k : TxKey) (p : OutPkt → Bool) : State :=
  let rd := ((s.fab.txOf k).map fun t => t.out.filter fun o => p o && o.pkt.ty == tyReadReq && o.acked.isEmpty).getD []
  ({ s with fab := { s.fab with reads := s.fab.reads ++ rd } } : State).modTx k fun t =>
    let gone := t.out.filter p
    let left := t.out.filter fun o => !p o
    { t with
      out := left
      retries := if (t.out.take 1).any p then 0 else t.retries
      idleSince := if left.isEmpty && !gone.isEmpty then s.now else t.idleSince }

/-- `a` comes before `b` in the window (R179). -/
def seqBefore (a b : Nat) : Bool := later b a

/-- R204, R205, R210: an ACK from `from'`. A unicast ACK releases what lies below its SEQ; a multicast one counts the
member. -/
def State.ackIn (s : State) (x : Pkt) : State :=
  let k : TxKey := if bit x.aux 12 then .group (x.aux % 2 ^ 12) else .uni x.src
  match s.fab.txOf k with
  | none => s
  | some t =>
    if bit x.aux 13 then
      s.modTx k fun t => { t with
          out := t.out.map fun o =>
            if o.pkt.seq = x.seq then { o with held := true, timer := s.now } else o }
    else
      match k with
      | .uni _ =>
        let gone := t.out.filter fun o => seqBefore o.pkt.seq x.seq
        let s1 := gone.foldl (fun u o => if o.acked.isEmpty ∧ o.pkt.ty ≠ tyReadReq then u.txDone o.who 0 else u) s
        s1.release k fun o => seqBefore o.pkt.seq x.seq
      | .group _ =>
        let n := s.membersOf k
        let s1 := s.modTx k fun t => { t with
          out := t.out.map fun o =>
            if seqBefore o.pkt.seq x.seq ∧ x.src ∉ o.acked then { o with acked := o.acked ++ [x.src] } else o }
        let full (o : OutPkt) : Bool := decide (n ≤ o.acked.length + o.fenced.length)
        let gone := ((s1.fab.txOf k).map fun t => t.out.filter full).getD []
        let s2 := gone.foldl (fun u o => u.txDone o.who 0 (some (o.acked.length, o.fenced.length, 0))) s1
        s2.release k full

/-- R190, R204, R210, R211: a NAK. The packet completes with its code; a FENCED one leaves the window. -/
def State.nakIn (s : State) (x : Pkt) : State :=
  let origDst := leNat (x.payload.take 2)
  let mc := (x.payload.getD 2 0).toNat % 2 == 1
  let fid := leNat ((x.payload.drop 4).take 2)
  let k : TxKey := if mc then .group (origDst % 2 ^ 12) else .uni (origDst % 2 ^ 14)
  match (s.fab.txOf k).bind fun t => t.out.find? fun o => o.pkt.seq == x.seq with
  | none => s
  | some o =>
    if mc ∧ x.aux = Err.fenced then
      let s1 := s.modTx k fun t => { t with
          out := t.out.map fun o =>
            if o.pkt.seq = x.seq ∧ fid ∉ o.fenced then { o with fenced := o.fenced ++ [fid] } else o }
      let n := s.membersOf k
      let full (o : OutPkt) : Bool := decide (n ≤ o.acked.length + o.fenced.length)
      let gone := ((s1.fab.txOf k).map fun t => t.out.filter full).getD []
      let s2 := gone.foldl (fun u o => u.txDone o.who 0 (some (o.acked.length, o.fenced.length, 0))) s1
      s2.release k full
    else if mc then (s.refusedFar o.who x.aux o.pkt).txDone o.who x.aux
    else
      let s1 : State := if o.acked.isEmpty then (s.refusedFar o.who x.aux o.pkt).txDone o.who x.aux else s
      let s2 := s1.modTx k fun t => { t with
          out := t.out.map fun q =>
            if q.pkt.seq = x.seq then { q with acked := [x.src] } else q }
      if x.aux = Err.fenced then s2.release k fun q => q.pkt.seq == x.seq else s2

/-- An ACK or NAK leaves this endpoint; one for this module itself is consumed at once, a dropped one is counted and
logged (R204). -/
def State.sendCtl (s : State) (x : Pkt) : State :=
  if x.dst = s.fab.id then (if x.ty = tyAck then s.ackIn x else s.nakIn x)
  else
    match s.way x with
    | .link k => s.toPort k ((s.fab.routes.get {} x.dst).dateline.getLsbD k) x
    | .toLocal => s
    | .drop c => s.fabDrop c x

/-- A drop that the source is told of (R198, R199, R211). -/
def State.dropNak (s : State) (c : Code) (x : Pkt) (fencedId : Nat := 0) : State :=
  let t := s.fabDrop c x
  if x.ty = tyAck ∨ x.ty = tyNak then t else t.sendCtl (mkNak s.fab.id x c fencedId)

/-- The local port that takes a packet (Table 08-1). -/
def Pkt.localPort (x : Pkt) : Nat := if x.ty ≤ tyAccumulate then 36 else if x.ty = tyCollData then 37 else if x.ty = tySync then 38 else 39

/-- R208: the group delivers its packet to the local port of its type. -/
def McGroup.takes (g : McGroup) (x : Pkt) : Bool := g.valid && g.mask.getLsbD x.localPort

/-- R208, R211: the copies of a multicast packet, and the FENCED NAKs for the leaves that are fenced. `put` sends one
copy on a link. -/
def State.replicate (s : State) (x : Pkt) (put : State → Nat → Bool → State) : State :=
  let g := s.fab.groups.get {} (x.dst % 2 ^ 12)
  if !g.valid then s.dropNak Err.mcastForm x
  else
    let one (t : State) (k : Nat) : State :=
      if !g.mask.getLsbD k then t
      else
        let peer := (t.rake.links.get {} k).peer
        if g.leaf.getLsbD k && (t.fab.routes.get {} peer).fence then
          t.sendCtl (mkNak t.fab.id x Err.fenced peer)
        else if x.hops = 15 then t.dropNak Err.routeHops x
        else if x.vc = 1 ∧ g.dateline.getLsbD k then t.dropNak Err.datelineTwice x
        else put t k (g.dateline.getLsbD k)
    let t := (List.range 36).foldl one s
    if g.takes x && (t.fab.routes.get {} t.fab.id).fence then
      t.sendCtl (mkNak t.fab.id x Err.fenced t.fab.id)
    else t

/-- An admitted packet enters the router (R199): class 0 waits for a token, the others go to their output queue. -/
def State.inject (s : State) (x : Pkt) : State :=
  let put (t : State) (k : Nat) (d : Bool) : State := if x.cls = 0 then t.toTokens k x else t.toPort k d x
  if x.mcast then s.replicate x put
  else
    match s.way x with
    | .link k => put s k ((s.fab.routes.get {} x.dst).dateline.getLsbD k)
    | .toLocal => s
    | .drop c => s.dropNak c x

/-- R201, R203: one packet admitted to its half. -/
def State.admit1 (s : State) (k : TxKey) (t : TxHalf) (x : Pkt) (who : TxOrigin) : State :=
  let y := { x with seq := t.next, syn := t.out.isEmpty, hops := 0, vc := 0, retx := false }
  let s1 := s.modTx k fun h => { h with
    next := (h.next + 1) % 2 ^ 16, out := h.out ++ [{ pkt := y, who := who, timer := s.now }] }
  s1.inject y

/-- Transmit requests of a context go out while there is room (R201). -/
def State.drainTx (k : TxKey) : Nat → State → State
  | 0, s => s
  | n + 1, s =>
    match s.fab.txOf k with
    | none => s
    | some t =>
      match t.waiting with
      | [] => s
      | (x, who) :: r =>
        if s.room t x then
          State.drainTx k n ((s.modTx k fun h => { h with waiting := r }).admit1 k t x who)
        else s

/-- A transmit request (R200, R201). A source that fences the destination drops it and completes it with FENCED (R211);
a group without members is refused with MCAST_FORM (R209). -/
def State.request (s : State) (x : Pkt) (who : TxOrigin) : State :=
  let k := x.txKey
  if x.mcast && (s.fab.groups.get {} (x.dst % 2 ^ 12)).members == 0 then
    ((s.fabErr Err.mcastForm x).fabLog Err.mcastForm x).txDone who Err.mcastForm
  else if !x.mcast && (s.fab.routes.get {} x.dst).fence then
    (s.fabDrop Err.fenced x).txDone who Err.fenced
  else
    let s1 := match s.fab.txOf k with
      | some _ => some s
      | none =>
        let has := match k with
          | .uni id => (s.fab.rxOf (.uni id)).isSome
          | .group _ => false
        if has || decide (s.fab.contexts < 4096) then
          some { s with fab := { s.fab with tx := s.fab.tx ++ [({ key := k, idleSince := s.now } : TxHalf)] } }
        else none
    match s1 with
    | none => { s with fab := { s.fab with parked := s.fab.parked ++ [(k, x, who)] } }
    | some u =>
      let u1 := u.modTx k fun t => { t with waiting := t.waiting ++ [(x, who)] }
      State.drainTx k 65 u1

/-- Transmit requests of every context go out while there is room: the retry store is shared (R201, R206). -/
def State.drainAll (s : State) : State := (s.fab.tx.map (·.key)).foldl (fun t k => State.drainTx k 65 t) s

/-- Requests that waited for a context are made again once one is free (R200). -/
def State.unpark (s : State) : State :=
  let l := s.fab.parked
  l.foldl (fun t r => t.request r.2.1 r.2.2) { s with fab := { s.fab with parked := [] } }

/-- Packets of a unit that are not yet complete (R109, R259). -/
def State.outstanding (s : State) (who : TxOrigin) : Nat :=
  (s.fab.tx.map fun t =>
    (t.out.filter fun o => o.who == who).length + (t.waiting.filter fun w => w.2 == who).length).foldl (· + ·) 0
    + (s.fab.reads.filter fun o => o.who == who).length + (s.fab.parked.filter fun r => r.2.2 == who).length

/-- Reads released by an ACK whose READ_RESP will not come: they complete with `code` (R206, R207, Table 08-21). -/
def State.failReads (s : State) (q : Nat → Bool) (code : Code) : State :=
  let l := s.fab.reads.filter fun o => q o.pkt.dst
  l.foldl (fun u o => u.txDone o.who code) { s with fab := { s.fab with reads := s.fab.reads.filter fun o => !q o.pkt.dst } }

/-- R206, R207, R210: every request of a context completes with `code`, and the half is freed or starts anew. -/
def State.failTx (s : State) (k : TxKey) (code : Code) (free : Bool) : State :=
  match s.fab.txOf k with
  | none => s
  | some t =>
    let n := s.membersOf k
    let s0 := if free then { s with fab := { s.fab with tx := s.fab.tx.filter fun h => h.key != k } }
      else s.modTx k fun h => TxHalf.mk h.key 0 [] 0 [] s.now
    let s1 := match t.out.head? with
      | some o => (s0.fabErr code o.pkt).fabLog code o.pkt
      | none => s0
    let s2 := t.out.foldl (fun u o =>
      match k with
      | .uni _ => if o.acked.isEmpty then u.txDone o.who code else u
      | .group _ =>
        let d := o.acked.length
        let f := min o.fenced.length n
        u.txDone o.who code (some (d, f, n - d - f))) s1
    let s3 := t.waiting.foldl (fun u w => u.txDone w.2 code (match k with
      | .uni _ => none
      | .group _ => some (0, 0, n))) s2
    match k with
    | .uni id => s3.failReads (· == id) code
    | .group _ => s3

/-- SYNC packet of a local ADD at another module (Table 07-5). -/
def syncAddPkt (self dst counter amount slot cause : Nat) (ft : Word) (prov : Bool) (epochLo : Nat) : Pkt where
  dst := dst
  src := self
  cls := 0
  ty := tySync
  prov := prov
  epochLo := if prov then epochLo else 0
  len := 32
  payload := [1, 0] ++ leBytes counter 2 ++ leBytes amount 4 ++ leBytes ft.toNat 8 ++ leBytes 0 8 ++ leBytes slot 2
    ++ [BitVec.ofNat 8 cause] ++ List.replicate 5 0

end Sys2Proof.Machine
end

