-- ==== Sys2Proof/Machine/Notify.lean ====
section
/-! DEFINITION. Operations of the sync unit with what follows from them in the module: wakes, streams, messages, host
notifications, refusals (R166 to R169, R184). -/

namespace Sys2Proof.Machine

/-- R112: the notification lands at a core. One with no block and no launch is idle (R101). -/
def Core.wake (k : Core) : Core :=
  { k with waiting := none
           run := if k.run = .held ∧ k.block = none ∧ k.launches = [] then .idle else k.run }

/-- Log record of a refusal at the sync unit (R11, R184). -/
def State.syncLog (s : State) (r : SWho) (c : Code) (addr : Nat) : State :=
  s.log { code := c, unit := r.unit, srcId := if r.remote then some r.srcId else none, part := r.part.or (s.partOfUnit r.unit),
          addr := some addr, prov := r.prov, remote := r.remote }

/-- A refusal at counter `i`, of an access to `addr`: captured and logged. -/
def State.syncRefuse (s : State) (r : SWho) (kind i : Nat) (c : Code) (addr : Nat := counterAddr i) : State :=
  { s with sync := s.sync.capture s.fab.id r kind i c }.syncLog r c addr

/-- One notification delivered (Table 07-3). -/
def State.deliver1 (s : State) (n : Note) : State :=
  match n with
  | .wake c => s.modCore c Core.wake
  | .stream p k => s.modStream p k fun x => { x with fired := true }
  | .rake => s
  | .remoteAdd dst counter amount slot time view watched =>
    let e := (s.part (s.sync.group watched).part).epoch.toNat + 1
    s.request (syncAddPkt s.fab.id dst counter amount slot (if time then 3 else 2) s.sync.ft view (e % 4)) (.sync counter)
  | .host w _ _ time => s.hostNote w time
  | .refused c i r => s.syncRefuse r 2 i c

def State.deliver (s : State) (l : List Note) : State := l.foldl State.deliver1 s

/-- The answer of the sync unit and the state after it. -/
def State.syncRes (s : State) (r : SWho) (kind i : Nat) (x : Except Code (Sync × List Note)) : Option Code × State :=
  match x with
  | .error c => (some c, s.syncRefuse r kind i c)
  | .ok q => (none, { s with sync := q.1 }.deliver q.2)

/-- R161: an ADD (or, at a barrier's arrival counter, an ARRIVE). -/
def State.counterAdd (s : State) (r : SWho) (i : Nat) (v : Word) : Option Code × State :=
  let q := s.sync.add { who := r, i := i, v := v }
  let t := { s with sync := q.2.1 }.deliver q.2.2
  match q.1 with
  | some c => (some c, t.syncRefuse r 2 i c)
  | none => (none, t)

/-- R161: a SET. -/
def State.counterSet (s : State) (r : SWho) (i : Nat) (v : Word) : Option Code × State :=
  s.syncRes r 1 i (s.sync.put r i v)

/-- R161: a READ. -/
def State.counterRead (s : State) (r : SWho) (i : Nat) : Except Code Word × State :=
  match s.sync.permit r .read i with
  | some c => (.error c, s.syncRefuse r 0 i c)
  | none => (.ok (s.sync.read r.prov i), s)

/-- R164, R165: a watch entry written. -/
def State.watchWrite (s : State) (r : SWho) (slot : Nat) (w0 w1 w2 w3 : Word) (who : Waiter) (epoch : Option Word) :
    Option Code × State :=
  s.syncRes r 1 (w0.toNat / 64 % 65536) (s.sync.arm r slot w0 w1 w2 w3 who epoch)

/-- A watch of the sync unit itself for a core or a stream, in a slot of its own (R112, R311). The watched counter must
be one that the requester may act on. -/
def State.armWait (s : State) (r : SWho) (slot : Nat) (w : Watch) : Option Code × State :=
  match (if w.cond = 1 then none else s.sync.permit r .watch w.counter) with
  | some c => (some c, s.syncRefuse r 0 w.counter c)
  | none =>
    let q := s.sync.armAt slot w
    (none, { s with sync := q.1 }.deliver q.2)

/-- Watches for which `p` holds cancelled. -/
def State.cancelWatches (s : State) (p : Nat → Watch → Bool) : State := { s with sync := s.sync.cancel p }

/-- A change of many counters at once, followed by the tests of their watches. -/
def State.syncTest (s : State) (q : Nat → Bool) : State :=
  let r := s.sync.testAll q
  { s with sync := r.1 }.deliver r.2

/-- The answer of a command that asked for one operation. -/
def answer (x : Option Code × State) : Step :=
  match x.1 with
  | none => done (.ok []) x.2
  | some c => done (.refused c) x.2

end Sys2Proof.Machine
end

