-- ==== Sys2Proof/Machine/CoreOps.lean ====
section
/-! DEFINITION. Issue of bundles by a core, its faults, waits, launches and squashes (R92 to R102, R112 to R121, R395,
R397). -/

namespace Sys2Proof.Machine

/-- SQUASH_LIMIT (R275). -/
def Err.squashLimit : Code := 0x0909

/-- The tag of a core's block when that work is provisional (R102). -/
def State.coreProv (s : State) (c : Nat) : Option Word :=
  match (s.core c).block with
  | some l => provTag (s.env c) l.tag
  | none => none

/-- EPOCH_LO of work tagged so; committed work has 0 (R102). -/
def epochLoOf (prov : Option Word) : Nat :=
  match prov with
  | some e => e.toNat % 4
  | none => 0

/-- A core as a requester of the sync unit. -/
def State.coreWho (s : State) (c : Nat) : SWho :=
  { unit := 0x40 + c, part := s.partOfCore c, prov := (s.coreProv c).isSome, epochLo := epochLoOf (s.coreProv c) }

/-- R121: the lowest code of a list, if any. -/
def lowest (l : List Code) : Option Code :=
  l.foldl (fun m c => match m with
    | none => some c
    | some d => some (min c d)) none

/-- Codes of an engine recorded in its register: the lowest of this instance (R67, R89, R121). -/
def recordErr (err : Bool) (old : Code) (l : List Code) : Bool × Code :=
  match lowest l with
  | none => (err, old)
  | some c => (true, first err old c)

/-- R121: codes recorded in a mover. -/
def Mover.record (m : Mover) (codes : List Code) : Mover :=
  let r := recordErr m.err m.errCode codes
  { m with err := r.1, errCode := r.2 }

/-- R120, R121: conditions recorded in the core, its engines and its movers; it halts. -/
def Core.fault (k : Core) (fs : List Flt) : Core :=
  let codes := fs.map (·.code)
  let cc := recordErr k.err k.errCode codes
  let me := recordErr k.me.err k.me.errCode (codes.filter fun c => c / 256 == 1)
  let ve := recordErr k.ve.err k.ve.errCode (codes.filter fun c => c / 256 == 2)
  let mover (t : Tab Mover) (m : Nat) : Tab Mover :=
    match fs.filter fun f => f.mover == some m with
    | [] => t
    | l => t.mod {} m fun x => x.record (l.map (·.code))
  { k with err := cc.1, errCode := cc.2, me := { k.me with err := me.1, errCode := me.2 }
           ve := { k.ve with err := ve.1, errCode := ve.2 }, mv := mover (mover k.mv 0) 1, run := .halted }

/-- R138: MEM_FAULT of a partition captures the first refusal. -/
def PMem.capture (x : PMem) (code addr src : Nat) : PMem :=
  if x.err then x else { x with err := true, errCode := code, faultAddr := addr, faultSrc := src }

/-- A core takes a fault without a further log record: the partition is asked to halt (R120, R184). The stream is that of the
condition with the lowest code. -/
def State.coreHalt (s : State) (c : Nat) (fs : List Flt) : State :=
  match lowest (fs.map (·.code)) with
  | none => s
  | some code =>
    let t := s.modCore c fun k => k.fault fs
    match s.partOfCore c with
    | some p => t.askHalt p code ((fs.find? fun f => f.code == code && decide (f.stream < 64)).map (·.stream))
    | none => t

/-- R120, R121, R138: the conditions that a core met: logged each, recorded, the core halts. -/
def State.coreFaults (s : State) (c : Nat) (fs : List Flt) : State :=
  if fs.isEmpty then s
  else
    let p := s.partOfCore c
    let t := s.logAll (fs.map fun f =>
      { code := f.code, unit := 0x40 + c, part := p, addr := some f.addr, prov := f.prov.isSome })
    let mems := fs.filter fun f => f.code == Err.uncorrectable
    let u := match p, mems with
      | some q, f :: _ =>
        let src := srcWord s.fab.id (0x40 + c) (if f.store then 1 else 0) false f.prov.isSome (epochLoOf f.prov) none
        t.modPart q fun x => { x with mem := x.mem.capture f.code f.addr src }
      | _, _ => t
    u.coreHalt c fs

/-- The core and the local store after some cycles, with the conditions met. -/
def State.putBench (s : State) (c : Nat) (b : Bench) : State :=
  { s.modCore c (fun _ => b.core) with mem := b.mem }.coreFaults c b.faults

def State.bench (s : State) (c : Nat) : Bench := { core := s.core c, mem := s.mem, faults := [] }

/-- Bound on the events of a core within one command. -/
def settleFuel : Nat := 20000

/-- R395: the touches and pair reads of the cycle in which the next bundle issues. They come before it in the model, and what they
meet is taken with it, since that bundle still stands. -/
def lateTouches (e : Env) (bad : List Nat) (b : Bench) : Bench :=
  let x := pairsAt e b.core.cycle (touchesAt e bad b.core.cycle b)
  { x with core := { x.core with late := x.core.late ++ x.faults }, faults := [] }

/-- A core may issue: it issues, nothing holds it, and it has a block (R92). -/
def Core.mayIssue (k : Core) : Bool :=
  k.run == .issuing && k.waiting.isNone && !k.dutyHold && k.block.isSome

/-- What is due before the next bundle issues: every cycle up to the last one, the landings of this one, and its touches where the
core is not held (R91, R395). A halted core runs on until nothing is in flight (R120). `bad`: local-store lines found
uncorrectable (R154). -/
def State.settleCore (s : State) (c : Nat) (bad : List Nat) : State :=
  let k := s.core c
  let e := s.env c
  let b0 := s.bench c
  let b1 :=
    if k.run = .halted then settle settleFuel e bad (k.cycle + 100000) b0
    else if k.cycle = 0 then b0 else settle settleFuel e bad (k.cycle - 1) b0
  let b2 := if b1.faults.isEmpty then { b1 with core := landAll (4 * b1.core.flights.length + 200) k.cycle b1.core } else b1
  let b3 := if b2.faults.isEmpty && k.mayIssue then lateTouches e bad b2 else b2
  s.putBench c b3

/-- The device address of the bundle at offset `pc` of a block (Table 05-13). -/
def Launch.bundleAddr (l : Launch) (pc : Nat) : Nat := l.addr + 32 * pc

/-- R112: a core registers its watch and is held. -/
def State.coreWait (s : State) (c : Nat) (r : SWho) (prov : Option Word) (stream bundle cond counter : Nat) (value time : Word) :
    State :=
  let t := s.modCore c fun k => { k with
    run := if k.run = .halted then .halted else .held
    waiting := some { since := s.now, bundle := bundle, prov := prov, stream := stream } }
  let w : Watch := { cond := cond, view := prov.isSome, dest := 0, counter := counter, value := value, time := time,
                     word3 := 0, who := .core c, epoch := prov }
  match t.armWait r (4064 + c) w with
  | (none, u) => u
  | (some code, u) =>
    (u.modCore c fun k => { k with waiting := none }).coreHalt c
      [{ code := code, addr := bundle, slot := 0, prov := prov, stream := stream }]

/-- Where a flight will land: kind of register (0 general, 1 vector, 2 predicate, 3 summary), number, cycle. -/
def Flight.lands? (f : Flight) : Option (Nat × Nat × Nat) :=
  match f.ev with
  | .landG r _ => some (0, r, f.due)
  | .scLd r _ => some (0, r, f.due + 7)
  | .landV r .. => some (1, r, f.due)
  | .veLd r .. | .veLdb r .. => some (1, r, f.due + 7)
  | .landP r .. => some (2, r, f.due)
  | .landS r .. | .landSeen r .. => some (3, r, f.due)
  | _ => none

/-- R73, R95: the last cycle in which a write under way lands in each register of a kind. -/
def duesOf (fs : List Flight) (kind : Nat) : Tab Nat :=
  fs.foldl (fun t f => match f.lands? with
    | some (k, r, n) => if k = kind then t.set 0 r (max (t.get 0 r) n) else t
    | none => t) []

/-- R81: the OP that summary register `r` will hold once the writes under way have landed. -/
def summOpOf (fs : List Flight) (r : Nat) (held : Bool) : Bool :=
  fs.foldl (fun o f => match f.ev with
    | .landS s x _ => if s = r then x.op else o
    | _ => o) held

/-- The registers or rows of the kind of a flight that a squash poisons: its write, which came before the squashed ones, leaves
that poison (R68, R90). -/
def Flight.under (f : Flight) (tr : Trace) : Flight :=
  let keep : Nat := match f.ev with
    | .landG .. | .scLd .. => tr.g.toNat
    | .landV .. | .veLd .. | .veLdb .. => tr.v.toNat
    | .landP .. => tr.p.toNat
    | .landS .. | .landSeen .. => tr.s.toNat
    | .zeroRows .. | .landRow .. | .landStream .. | .accLd .. | .mmStream .. => tr.rows.toNat
    | .veTld .. | .tableSwitch .. => tr.t.toNat
    | _ => 0
  { f with keep := f.keep ||| BitVec.ofNat 1024 keep }

/-- R68, R90, R118: registers, rows and tables written by work tagged `e` are poisoned; its results in flight do not land,
its stores do; a table that it loads is poisoned as it switches. Draws return to their restore points (R43). -/
def Core.poison (k : Core) (e : Word) : Core :=
  let tr := if k.trace.tag = some e then k.trace else {}
  let onList (n : Nat) (f : Nat → Bool) : List Nat := (List.range n).filter f
  let rows := onList 1024 fun r => tr.rows.getLsbD r
  let keep (f : Flight) : Option Flight :=
    if f.tag ≠ e then some f
    else match f.ev with
      | .scSt .. | .veSt .. | .accWrite .. => some f
      | .veTld t off j img _ => some { f with ev := .veTld t off j img true }
      | .tableSwitch t img _ => some { f with ev := .tableSwitch t img true }
      | _ => none
  let draw (save : Option DrawSave) (d : Draw) : Draw :=
    match save with
    | some x => if x.tag = e then { step := x.step, count := x.count } else d
    | none => d
  let drop (save : Option DrawSave) : Option DrawSave := save.filter fun x => x.tag != e
  let fs := (k.flights.filterMap keep).map fun f => if f.tag = e then f else f.under tr
  { k with
    gPoison := k.gPoison ||| tr.g
    flights := fs
    late := k.late.filter fun x => x.prov != some e
    gDue := duesOf fs 0
    vDue := duesOf fs 1
    pDue := duesOf fs 2
    sDue := duesOf fs 3
    sum := (onList 4 fun r => tr.s.getLsbD r).foldl (fun t r => t.mod {} r fun x => { x with poison := true }) k.sum
    sumOp := (onList 4 fun r => tr.s.getLsbD r).foldl (fun t r => t.set false r (summOpOf fs r (k.sum.get {} r).op)) k.sumOp
    tables := (onList 16 fun r => tr.t.getLsbD r).foldl (fun t r => t.mod {} r fun x => { x with poison := true }) k.tables
    stat := (onList 2 fun r => tr.stat.getLsbD r).foldl (fun t r => t.mod {} r fun x => { x with poison := true }) k.stat
    acc := rows.foldl (fun t r => t.mod {} r fun x => { x with poison := true }) k.acc
    rowPoison := rows.foldl (fun t r => t.set false r true) k.rowPoison
    rowMode := rows.foldl (fun t r => t.set false r (k.acc.get {} r).int) k.rowMode
    ve := { k.ve with vPoison := k.ve.vPoison ||| tr.v, pPoison := k.ve.pPoison ||| tr.p
                      draw := draw k.ve.save k.ve.draw, save := drop k.ve.save }
    mv := k.mv.mapVals fun _ m => { m with
      draw := draw m.save m.draw, save := drop m.save
      active := m.active.map fun a => if a.tag = e then { a with stopped := true } else a }
    trace := if k.trace.tag = some e then {} else k.trace }

/-- R118: a core at the squash of `e`. One that runs work tagged `e` stops and takes no launch until the squash is
complete. -/
def Core.squash (k : Core) (e : Word) : Core :=
  let runs := match k.block with
    | some l => l.tag == e
    | none => false
  let k1 := (k.poison e)
  let k2 := { k1 with launches := k1.launches.filter fun l => l.tag != e }
  if runs then
    { k2 with block := none, branch := none, pc := 0, waiting := none, squashHold := true
              run := if k.run = .halted then .halted else .held }
  else k2

/-- Partition `p` has the waiter. -/
def State.waiterIn (s : State) (p : Nat) (w : Waiter) : Bool :=
  match w with
  | .core c => (s.part p).holds c
  | .stream q _ => q == p
  | .part q => q == p
  | _ => false

/-- The watch was armed for partition `p`: by its work here, or by a remote module on one of its counters. -/
def State.armedFor (s : State) (p : Nat) (w : Watch) : Bool :=
  s.waiterIn p w.who || (match w.who with
    | .remote _ => (s.sync.group w.counter).part == p
    | _ => false)

/-- R118, R181, R266: a squash of epoch `e` of partition `p` begins. -/
def State.squash (s : State) (p : Nat) (e : Word) : State :=
  let t := (s.part p).cores.foldl (fun u c => u.modCore c fun k => k.squash e) s
  let u := t.modPart p fun x => { x with squash := some e, attempt := x.attempt + 1 }
  u.cancelWatches fun _ w => w.view && w.epoch == some e && s.armedFor p w

/-- What a slot asks of the rest of the module (R96, R112, R117, R184): as `r`, for work tagged `prov` of a launch of `stream`. -/
def State.ext (c bundle : Nat) (r : SWho) (prov : Option Word) (stream : Nat) (s : State) (x : Ext) : State :=
  match x with
  | .sig i v =>
    (match s.counterAdd r i v with
      | (none, t) => t
      | (some code, t) =>
        t.coreHalt c [{ code := code, addr := bundle, slot := 0, prov := prov, stream := stream }])
  | .wait i v => s.coreWait c r prov stream bundle 0 i v 0
  | .waitt v => s.coreWait c r prov stream bundle 1 0 0 v
  | .squash e =>
    match s.partOfCore c with
    | none => s
    | some p => s.squash p e

/-- R275: an sc.squash beyond the 15th of its epoch is a condition of its bundle, and is not performed. -/
def State.squashLimit (s : State) (c : Nat) (x : Site) (ext : List Ext) : List Flt :=
  match s.partOfCore c with
  | none => []
  | some p =>
    if 15 ≤ (s.part p).attempt ∧ ext.any (fun e => match e with
        | .squash _ => true
        | _ => false) then [x.own (x.flt 0 Err.squashLimit)]
    else []

/-- R121, R395: a bundle that meets conditions ends the core's work in its cycle: the conditions of the cycle's touches and pair
reads are taken with its own. -/
def State.takeFaults (s : State) (c : Nat) (e : Env) (t : Nat) (fs : List Flt) : State :=
  if fs.isEmpty then s
  else
    let b := pairsAt e t (s.bench c)
    { s.modCore c (fun _ => b.core) with mem := b.mem }.coreFaults c (fs ++ b.faults)

/-- What the touches of its cycle met is taken with the bundle. -/
def Core.tookLate (k : Core) : Core := { k with late := [] }

/-- R93, R94, R397: the next bundle of core `c` issues, with the slots of `ovr` where given. -/
def State.issueNow (s : State) (c : Nat) (ovr : Option Bundle) : State :=
  let k := s.core c
  match k.block with
  | none => s
  | some l =>
    let addr := l.bundleAddr k.pc
    let e := s.env c
    let x : Site := { e := e, tag := l.tag, bundle := addr, count := l.bundles, pc := k.pc, stream := l.stream }
    let s0 := s.modCore c Core.tookLate
    if l.bundles ≤ k.pc then s0.coreFaults c (k.late ++ [x.own (x.flt 0 Err.blockOverrun)])
    else
      let b := match ovr with
        | some b => if b.mm.wf && b.ve.wf then some b else none
        | none => Bundle.decode (k.bundles.get 0 (4096 * l.half + k.pc))
      match b with
      | none => s0.coreFaults c (k.late ++ [x.own (x.flt 0 Err.badEncoding)])
      | some b =>
        let i := issueSlots x b k.tookLate
        let s1 : State := { s with freeIdx := s.freeIdx + b.ve.freeUse }
        let full := s.squashLimit c x i.ext
        let t := (s1.modCore c fun _ => i.core).takeFaults c e k.cycle (k.late ++ i.faults ++ full)
        (if full.isEmpty then i.ext else []).foldl (State.ext c addr (s.coreWho c) (s.coreProv c) l.stream) t

/-- R93: what is due before it, then the next bundle. Nothing issues where a condition is met first (R395). -/
def State.issue (s : State) (c : Nat) (ovr : Option Bundle) : Step :=
  if (s.core c).mayIssue then
    let t := s.settleCore c []
    if (t.core c).mayIssue then
      let u := t.issueNow c ovr
      if (u.core c).run = .halted then done (.refused (u.core c).errCode) u else served u
    else done (.refused (t.core c).errCode) t
  else idle s

/-- A bundle with one slot of its own, issued in place of the stored one (log entry 32). -/
def slotSc (c : Nat) (op : ScOp) (s : State) : Step := guarded (decide (c < 32)) s (s.issue c (some { sc := op }))
def slotMv (c : Nat) (op : MvOp) (s : State) : Step := guarded (decide (c < 32)) s (s.issue c (some { mv := op }))
def slotMm (c : Nat) (op : MmOp) (s : State) : Step := guarded (decide (c < 32)) s (s.issue c (some { mm := op }))
def slotVe (c : Nat) (op : VeOp) (s : State) : Step := guarded (decide (c < 32)) s (s.issue c (some { ve := op }))

/-- A landing of the scalar slot: no row of its own performs it. -/
def Ev.scalarLands : Ev → Bool
  | .landG .. | .landExt .. | .landSeed .. => true
  | _ => false

/-- The horizon of a core's own events: a core that is not halted has performed what came before its next cycle. On a halted one the
results of scalar instructions land with any row of its events (R120). -/
def State.due (s : State) (c : Nat) (p : Ev → Bool) : Bool :=
  let k := s.core c
  k.flights.any fun f =>
    (k.run == .halted && (p f.ev || f.ev.scalarLands)) ||
      (p f.ev && (if f.ev.lands || k.mayIssue then decide (f.due ≤ k.cycle) else decide (f.due < k.cycle)))

/-- The events of a core of one kind, performed where one is due (log entry 33). -/
def State.eventOf (s : State) (c : Nat) (p : Ev → Bool) (bad : List Nat) : Step :=
  guarded (decide (c < 32) && s.due c p) s <|
    let t := s.settleCore c bad
    if (t.core c).run = .halted ∧ (s.core c).run ≠ .halted then done (.refused (t.core c).errCode) t else served t

/-- R102, R15: a launch may start while the committed epoch number is c. -/
def Launch.allowed (l : Launch) (committed : Word) : Bool := l.tag.toNat ≤ committed.toNat + 1

/-- R95, R101: the launch at the head of the queue becomes the block; g1 takes its argument. -/
def State.startLaunch (s : State) (c : Nat) (l : Launch) (rest : List Launch) : State :=
  s.modCore c fun k =>
    let x : Site := { e := s.env c, tag := l.tag, bundle := l.addr, count := l.bundles, pc := 0, stream := l.stream }
    noteG x 1 { gWrite k 1 l.arg with
      block := some l, launches := rest, pc := 0, branch := none, run := .issuing }

end Sys2Proof.Machine
end

