-- ==== Sys2Proof/Machine/Regs.lean ====
section
/-! DEFINITION. What the registers of configuration space read as (the register tables of chapters 03 to 15; R5, R6). Addresses
are offsets from 0x0020_0000_0000. -/

namespace Sys2Proof.Machine

open Sys2Proof.Num

/-- Base of configuration space (Table 06-2). -/
def cfgBase : Nat := 0x002000000000

/-- Size of configuration space. -/
def cfgSize : Nat := 0x10000000

/-- The 32 bits at offset `o` of a block given as (offset, bytes, value); what no entry holds is reserved and reads 0. -/
def pick (l : List (Nat × Nat × Nat)) (o : Nat) : Nat :=
  match l.find? fun e => decide (e.1 ≤ o) && decide (o < e.1 + e.2.1) with
  | some e => e.2.2 / 2 ^ (8 * (o - e.1)) % 2 ^ 32
  | none => 0

/-- Fields put together: (position, value). -/
def fields (l : List (Nat × Nat)) : Nat := l.foldl (fun n e => n + e.2 * 2 ^ e.1) 0

/-- Two's complement in `w` bits. -/
def twos (w : Nat) (z : Int) : Nat := (z % ((2 ^ w : Nat) : Int)).toNat

/-- Flags as a bit set. -/
def bitsOf (n : Nat) (f : Nat → Bool) : Nat := fields ((List.range n).map fun i => (i, (f i).toNat))

def Run.code : Run → Nat
  | .idle => 0 | .issuing => 1 | .held => 2 | .halted => 3

/-- MV_BANK_RESERVED (Table 05-22). -/
def Mover.banks (m : Mover) : BitVec 64 := m.active.foldl (fun b a => b ||| a.d.mask) 0

/-- Tables 05-21 to 05-25. -/
def Mover.regs (m : Mover) : List (Nat × Nat × Nat) :=
  [(0x00, 4, fields [(0, m.cvt.bits), (5, m.err.toNat), (6, m.active.length)]), (0x04, 4, m.errCode), (0x08, 8, m.banks.toNat),
   (0x10, 8, m.draw.count % 2 ^ 48), (0x18, 8, m.draw.step.toNat), (0x20, 8, m.done.toNat)]

/-- A load of a function table is in progress (Table 04-10). -/
def Core.tldBusy (k : Core) : Bool :=
  k.flights.any fun f => match f.ev with
    | .veTld .. | .tableSwitch .. => true
    | _ => false

/-- A port may still be busy. A halted core's contract cycles go on (R91): the model runs them together with its events, so once nothing
is in flight its ports are free. -/
def Core.counts (k : Core) : Bool := k.run != .halted || !k.flights.isEmpty

/-- Register block of core `c` (Tables 03-12, 04-9, 05-14). -/
def State.coreReg (s : State) (c o : Nat) : Nat :=
  let k := s.core c
  let st (f : Stat → Bool) : Nat := bitsOf 2 fun i => f (k.stat.get {} i)
  let busy (l : List Nat) : Nat := (k.counts && l.any fun t => decide (k.cycle < t)).toNat
  if o < 0x100 then
    pick [(0x00, 4, fields [(0, k.run.code), (2, k.err.toNat), (3, (match k.block with
            | some l => (provTag (s.env c) l.tag).isSome
            | none => false).toNat), (4, k.launches.length)]),
          (0x04, 4, k.errCode), (0x08, 4, k.waitLimit.toNat), (0x10, 8, k.cycle % 2 ^ 64), (0x18, 8, k.gPoison.toNat),
          (0x20, 8, k.extBanks.toNat)] o
  else if o < 0x200 then
    pick [(0x00, 4, fields [(0, k.me.accRange.toNat), (1, k.me.accInf.toNat), (2, k.me.accNan.toNat), (3, k.me.err.toNat),
            (4, st fun x => x.ready && !x.poison), (6, st fun x => x.poison), (8, busy [k.port.load, k.port.stream])]),
          (0x04, 4, k.me.errCode), (0x08, 8, k.me.rows.toNat)] (o - 0x100)
  else if o < 0x300 then
    pick [(0x00, 4, fields [(0, k.ve.cvt.bits), (5, k.ve.err.toNat), (6, k.tldBusy.toNat),
            (7, busy [k.port.ls, k.port.acc, k.port.alu, k.port.fn, k.port.red, k.port.tl]), (16, k.ve.pPoison.toNat),
            (24, bitsOf 4 fun i => (k.sum.get {} i).poison)]),
          (0x04, 4, k.ve.errCode),
          (0x08, 4, fields [(0, bitsOf 16 k.tableReady), (16, bitsOf 16 fun i => (k.tables.get {} i).poison)]),
          (0x0C, 4, k.ve.vPoison.toNat), (0x10, 8, k.ve.draw.count % 2 ^ 48), (0x18, 8, k.ve.draw.step.toNat)] (o - 0x200)
  else if o < 0x400 then pick (k.mv.get {} 0).regs (o - 0x300)
  else if o < 0x500 then pick (k.mv.get {} 1).regs (o - 0x400)
  else 0

/-- Block of pan slice or controller `i` (Tables 06-12 to 06-17). -/
def State.mcReg (s : State) (i o : Nat) : Nat :=
  let m := s.mc i
  let full := decide (64 ≤ ((s.mem.held.get [] i).filter (·.timed)).length)
  pick [(0x00, 4, fields [(0, m.online.toNat), (1, m.training.toNat), (2, m.scrub.toNat), (3, m.encReady.toNat), (4, m.throttle),
          (6, full.toNat)]),
        (0x04, 4, fields [(0, twos 8 m.temp), (8, m.refresh), (16, m.device)]),
        (0x08, 4, if i < 8 then 0 else fields [(0, m.t1), (8, m.t2)]),
        (0x0C, 4, fields [(0, m.cvt), (5, m.applying.toNat)]),
        (0x10, 8, m.eccCorr.toNat), (0x18, 8, m.eccUncorr.toNat), (0x20, 8, m.rdBytes.toNat), (0x28, 8, m.wrBytes.toNat)] o

/-- Bytes of a deferral record in the log (R146). -/
def DeferRec.bytes (r : DeferRec) : Nat := (64 + r.data.length + 63) / 64 * 64

/-- DEFER_USED (Table 06-22). -/
def PMem.used (x : PMem) : Nat := x.deferLog.foldl (fun n r => n + r.bytes) 0

/-- Word 2 of a region entry (Table 06-4). -/
def Region.flags (r : Region) : Nat :=
  fields [(0, r.valid.toNat), (1, r.r.toNat), (2, r.w.toNat), (3, r.a.toNat), (4, r.remR.toNat), (5, r.remW.toNat),
    (6, r.remA.toNat), (7, r.hostR.toNat), (8, r.hostW.toNat), (9, r.guard), (11, r.paired.toNat), (12, r.side.toNat),
    (13, r.cache.toNat), (14, r.det.toNat)]

def PanSplit.word (x : PanSplit) : Nat := fields [(0, x.base), (5, x.scratch), (10, x.cache)]

/-- MEM_PSTATUS (Table 06-18). -/
def PMem.status (x : PMem) : Nat := fields [(0, x.err.toNat), (1, x.flushBusy.toNat), (2, (!x.deferLog.isEmpty).toNat)]

/-- Memory block of partition `p`. -/
def State.pmemReg (s : State) (p o : Nat) : Nat :=
  let x := (s.part p).mem
  if 0x1000 ≤ o ∧ o < 0x3000 then
    let r := x.regions.get {} ((o - 0x1000) / 32)
    pick [(0, 8, r.base), (8, 8, r.limit), (16, 8, r.flags)] (o % 32)
  else if 0x40 ≤ o ∧ o < 0x60 then (x.panSplit.get {} ((o - 0x40) / 4)).word
  else
    pick [(0x00, 4, x.status), (0x04, 4, x.errCode), (0x08, 8, x.faultAddr), (0x10, 8, x.faultSrc), (0x18, 8, x.deferBase),
          (0x20, 8, x.deferSize), (0x28, 8, x.used)] o

def FtState.code : FtState → Nat
  | .free => 0 | .acquire => 1 | .locked => 2 | .holdover => 3

def Group.word32 (g : Group) : Nat := g.word % 2 ^ 32

/-- Sync-unit registers (Tables 07-13 to 07-22). Watch entries are write-only (R167). -/
def State.syncReg (s : State) (o : Nat) : Nat :=
  let x := s.sync
  if 0x20000 ≤ o then 0
  else if 0x4000 ≤ o then (if o < 0x4020 then (x.splits.get {} ((o - 0x4000) / 4)).word else 0)
  else if 0x2000 ≤ o then pick [(0, 8, (x.barriers.get {} ((o - 0x2000) / 8)).word)] (o % 8)
  else if 0x1000 ≤ o then (if o < 0x1400 then (x.groups.get {} ((o - 0x1000) / 4)).word32 else 0)
  else
    pick [(0x00, 4, fields [(0, x.err.toNat), (1, x.armed)]), (0x04, 4, x.errCode), (0x08, 8, x.faultAddr), (0x10, 8, x.faultSrc),
          (0x18, 8, x.ft.toNat), (0x20, 4, x.ctrl.word), (0x24, 4, fields [(0, x.ftState.code), (2, x.ftLink), (8, x.ftDepth)]),
          (0x28, 4, x.ftOffset.toNat)] o

/-- Encryption of a link is active (R214). -/
def State.encActive (s : State) (k : Nat) : Bool :=
  (s.port k).encEn && (s.link k).peerEnc && (s.link k).keyTx && (s.link k).keyRx && s.rake.features.getLsbD 65

/-- LINK_STATUSk (Table 08-17). -/
def State.linkStatus (s : State) (k : Nat) : Nat :=
  let l := s.link k
  let lanes := if l.trained then min l.txMap.length l.rxMap.length else 0
  fields [(0, s.linkState k), (2, lanes), (6, (s.encActive k).toNat), (7, (decide (l.changed + 10000 ≤ s.now)).toNat),
    (8, l.peerId)]

/-- A route entry (Table 08-11). -/
def Route.word (r : Route) : Nat :=
  fields [(0, r.primary.toNat), (36, r.alt.toNat), (72, r.dateline.toNat), (108, r.here.toNat), (109, r.valid.toNat),
    (110, r.fence.toNat)]

/-- A group entry (Table 08-12). -/
def McGroup.word (g : McGroup) : Nat :=
  fields [(0, g.mask.toNat), (40, g.leaf.toNat), (76, g.members), (90, g.valid.toNat), (91, g.dateline.toNat)]

/-- Fabric registers (Tables 08-16 to 08-19). -/
def State.fabReg (s : State) (o : Nat) : Nat :=
  let x := s.fab
  if 0x90000 ≤ o then 0
  else if 0x80000 ≤ o then pick [(0, 16, (x.groups.get {} ((o - 0x80000) / 16)).word)] (o % 16)
  else if 0x40000 ≤ o then pick [(0, 16, (x.routes.get {} ((o - 0x40000) / 16)).word)] (o % 16)
  else if 0x1000 ≤ o then
    if o < 0x1480 then
      let k := (o - 0x1000) / 0x20
      let p := s.port k
      pick [(0, 4, s.linkStatus k), (4, 4, p.encEn.toNat), (8, 8, p.txBytes.toNat), (0x10, 8, p.rxBytes.toNat)] (o % 0x20)
    else 0
  else
    pick [(0x00, 4, fields [(0, x.err.toNat), (1, ((List.range 36).filter s.up).length), (7, x.contexts),
            (20, (decide (2 ^ 21 ≤ x.retry)).toNat)]),
          (0x04, 4, x.errCode), (0x08, 4, x.id), (0x0C, 4, fields [(0, x.timeout), (16, x.retryMax)]),
          (0x10, 4, fields [(0, x.w1), (8, x.w2), (16, x.w3)]), (0x18, 8, x.hdr0.toNat), (0x20, 8, x.hdr1.toNat),
          (0x28, 8, x.drops.toNat)] o

/-- A lane of a link. -/
def OLink.lane (l : OLink) (n : Nat) : Lane := l.lanes.get {} n

/-- The transmit spare is usable: its ring holds lock and its wavelength is at stage 0 (R230, R243). -/
def OLink.txSpareOk (l : OLink) : Bool :=
  decide (l.txSpare < 9) && (l.lane l.txSpare).txState == 3 && (l.lane l.txSpare).stage == 0

/-- The receive spare is usable. -/
def OLink.rxSpareOk (l : OLink) : Bool :=
  decide (l.rxSpare < 9) && (l.lane l.rxSpare).rxState == 3 && (l.lane l.rxSpare).toneOk

/-- LNK_TXMAPk, LNK_RXMAPk (Table 09-13). -/
def mapWord (m : List Nat) : Nat := fields ((List.range 8).map fun i => (4 * i, (m[i]?).getD 0xF))

/-- LNK_ASSIGNk (Table 09-13). -/
def OLink.assign (l : OLink) : Nat :=
  fields ((List.range 9).map fun n => (3 * n, l.txRole.get 1 n)) + fields ((List.range 9).map fun n => (27 + 3 * n, l.rxRole.get 1 n))

/-- LANE_STATUSk_n (Table 09-14). -/
def Lane.status (x : Lane) : Nat :=
  fields [(0, x.txState), (3, x.rxState), (6, x.toneOk.toNat), (8, x.txHeater), (20, x.rxHeater), (32, x.ber), (48, twos 16 x.txRel)]

def Lane.errWord (x : Lane) : Nat := fields [(0, x.corr % 2 ^ 40), (40, min x.uncorr 0xFFFFFF)]

/-- A resweep runs on a lane. -/
def Lane.sweeping (x : Lane) : Bool := x.txState == 1 || x.rxState == 1

/-- LE_POWERe_n (Table 09-12). -/
def Engine.power (x : Engine) (n : Nat) : Nat := fields [(0, twos 16 (x.rel.get 0 n)), (16, x.stage.get 0 n)]

/-- Optics registers (Tables 09-10 to 09-14). -/
def State.optReg (s : State) (o : Nat) : Nat :=
  let x := s.opt
  if 0x12400 ≤ o then 0
  else if 0x10000 ≤ o then
    let k := (o - 0x10000) / 0x100
    let l := s.link k
    let q := o % 0x100
    if 0x10 ≤ q ∧ q < 0xA0 then
      let y := l.lane ((q - 0x10) / 0x10)
      pick [(0, 8, y.status), (8, 8, y.errWord)] (q % 0x10)
    else
      pick [(0x00, 4, mapWord l.txMap), (0x04, 4, mapWord l.rxMap), (0x08, 8, l.assign),
            (0xA0, 4, fields [(0, l.txSpare), (4, l.rxSpare), (8, l.txSpareOk.toNat), (9, l.rxSpareOk.toNat),
              (10, l.mig.isSome.toNat), (11, bitsOf 9 fun n => (l.lane n).txDue || (l.lane n).rxDue)])] q
  else if 0x1000 ≤ o then
    if o < 0x1600 then
      let e := (o - 0x1000) / 0x100
      let y := x.engines.get {} e
      let q := o % 0x100
      if q = 0 then fields [(0, (s.domainOn (48 + e)).toNat), (1, y.calDone.toNat), (2, y.laserOk.toNat)]
      else if q < 0x28 then y.power ((q - 4) / 4)
      else 0
    else 0
  else
    let noSpare := ((List.range 36).filter fun k => (s.link k).trained && (!(s.link k).txSpareOk || !(s.link k).rxSpareOk)).length
    let sweep := (List.range 36).any fun k => (List.range 9).any fun n => ((s.link k).lane n).sweeping
    let loop := (List.range 36).any fun k => (s.link k).loop.isSome
    pick [(0x00, 4, fields [(0, x.err.toNat), (1, sweep.toNat), (2, loop.toNat), (3, noSpare)]), (0x04, 4, x.errCode),
          (0x08, 4, fields [(0, x.gaps.toNat), (1, x.minLanes), (5, x.spareCal)]),
          (0x10, 8, fields [(0, x.faultLink), (6, x.faultLane), (10, x.faultDir)])] o

/-- Rake block (Tables 10-11, 10-13, 10-14). -/
def State.rakeReg (s : State) (o : Nat) : Nat :=
  let x := s.rake
  pick [(0x00, 4, fields [(0, x.err.toNat), (1, x.valid.toNat), (2, x.active.length)]), (0x04, 4, x.errCode),
        (0x08, 8, x.planId.toNat), (0x10, 8, x.coord.toNat), (0x18, 8, x.elems.toNat), (0x20, 8, x.lateDropped.toNat),
        (0x28, 8, x.stale.toNat), (0x40, 32, x.features.toNat)] o

/-- R261, R262: a norm accumulator rounded once to FP32. -/
def Norm.f32 (n : Norm) : Nat :=
  if n.nan then 0x7FC00000 else if n.inf then 0x7F800000 else toF32 (.fin false n.sum (-298))

/-- A phase record (Table 10-14). -/
def Phase.words (x : Phase) : List (Nat × Nat × Nat) :=
  [(0x00, 8, x.count.toNat), (0x08, 8, x.total.toNat), (0x10, 8, x.min.toNat), (0x18, 8, x.max.toNat), (0x20, 8, x.last.toNat),
   (0x28, 8, x.openAt.toNat), (0x30, 8, x.isOpen.toNat)]

/-- Rake block of partition `p`. -/
def State.rakePartReg (s : State) (p o : Nat) : Nat :=
  let x := s.part p
  if o < 0x4000 then pick (x.phases.get {} (o / 64)).words (o % 64)
  else if o < 0x4018 then pick [(0, 8, x.traceBase), (8, 8, x.traceSize), (16, 8, x.traceIndex.toNat)] (o - 0x4000)
  else if o < 0x4048 then
    let t := (o - 0x4018) / 16
    pick [(0, 8, (x.memCur.get 0 t).toNat), (8, 8, (x.memPeak.get 0 t).toNat)] ((o - 0x4018) % 16)
  else if o < 0x40C8 then pick [(0, 8, (x.norms.get {} ((o - 0x4048) / 8)).f32)] (o % 8)
  else 0

/-- Snapshot block of partition `p` (Tables 11-6 to 11-9). -/
def State.snapReg (s : State) (p o : Nat) : Nat :=
  let x := (s.part p).snap
  if 0x100 ≤ o ∧ o < 0x1100 then
    let r := x.regions.get {} ((o - 0x100) / 16)
    pick [(0, 8, fields [(0, r.snap.toNat), (1, r.mode), (3, r.delta.toNat), (16, r.rate)]), (8, 8, r.lastBytes % 2 ^ 40)] (o % 16)
  else
    pick [(0x00, 4, fields [(0, x.err.toNat), (1, x.drain.isSome.toNat), (2, x.stalling.toNat), (3, x.agree.isSome.toNat),
            (4, x.quiesced.toNat), (5, x.restoring.toNat), (6, x.fill.isSome.toNat), (7, (!x.serves.isEmpty).toNat),
            (8, x.needBase.toNat), (9, x.latest), (11, x.base)]),
          (0x04, 4, x.errCode),
          (0x08, 8, fields [(0, x.enable.toNat), (1, x.stall.toNat), (2, x.baseK), (8, x.agreeColl), (20, x.intMin), (36, x.intMax)]),
          (0x10, 8, fields [(0, x.deltaMin), (16, x.cMin), (32, x.cMax), (48, x.mPrior)]),
          (0x18, 8, fields [(0, x.mMin), (16, x.mMax), (32, x.window), (48, x.rateLo), (56, x.rateHi)]),
          (0x20, 8, x.locBase), (0x28, 8, x.slotSize), (0x30, 8, fields [(0, x.holdM), (16, x.holdMOff)]),
          (0x38, 8, fields [(0, x.holdD), (16, x.holdDOff)]), (0x40, 8, x.steps), (0x48, 8, x.anchor.toNat),
          (0x50, 8, x.lastComplete.toNat), (0x58, 8, x.lastBase.toNat), (0x60, 8, x.cost.toNat), (0x68, 8, x.mtbf.toNat),
          (0x70, 8, x.proposal), (0x78, 8, fields [(0, x.complete % 2 ^ 32), (32, x.notComplete % 2 ^ 32)]), (0x80, 8, x.drainDone)] o

/-- PWR_STATUS (Table 13-9). -/
def Pwr.status (x : Pwr) : Nat :=
  fields [(0, x.op), (3, x.duty), (7, x.capUn.toNat), (8, x.err.toNat), (9, x.inputLimit.toNat),
    (10, (x.hints.any fun h => h.2.2.2.2.isSome).toNat)]

def Pwr.input (x : Pwr) : Nat := fields [(0, x.power % 2 ^ 16), (16, x.volts % 2 ^ 16)]

/-- THERM_STATUS (Table 13-10). -/
def Pwr.therm (x : Pwr) : Nat :=
  fields [(0, twos 8 x.tjMax), (8, x.sensor), (15, x.warn.toNat), (16, x.throttle.toNat), (17, x.memoryHot.toNat),
    (18, x.quenchCause)]

/-- Power block (Tables 13-8 to 13-10). -/
def State.pwrReg (s : State) (o : Nat) : Nat :=
  let x := s.pwr
  if 0x100 ≤ o ∧ o < 0x140 then
    let k := (o - 0x100) / 4
    fields [(0, x.learned.get 0 k % 2 ^ 16), (16, x.lastOp.get 0 k)]
  else
    pick [(0x00, 4, x.status), (0x04, 4, x.errCode), (0x08, 4, x.cap), (0x0C, 4, x.input), (0x10, 8, x.req.toNat),
          (0x18, 8, x.on.toNat), (0x20, 4, fields [(0, x.tWarn), (8, x.tThrottle)]), (0x24, 4, x.therm), (0x28, 8, x.energy.toNat),
          (0x30, 8, x.shared.toNat)] o

/-- Energy block of partition `p`. -/
def State.energyReg (s : State) (p o : Nat) : Nat :=
  let x := s.part p
  if 0x100 ≤ o ∧ o < 0x300 then pick [(0, 8, (x.streamEnergy.get 0 ((o - 0x100) / 8)).toNat)] (o % 8)
  else pick [(0, 8, x.energy.toNat)] o

/-- BOOT_TIME.FULL_UP_S: seconds in full service without a break (Table 14-9). -/
def State.fullSeconds (s : State) : Nat :=
  match s.rst.fullSince with
  | some t => min ((s.now - t) / 1000000000) 0xFFFFFFFF
  | none => 0

/-- Reset block (Tables 14-7 to 14-9). -/
def State.rstReg (s : State) (o : Nat) : Nat :=
  let x := s.rst
  pick [(0x00, 4, fields [(0, x.stage), (4, x.err.toNat), (5, x.blockBusy.isSome.toNat)]), (0x04, 4, x.errCode),
        (0x08, 4, fields [(0, x.kind), (3, x.source), (8, x.remoteId)]),
        (0x0C, 4, fields [(0, x.failCount), (2, x.banked.toNat), (3, x.lastStage)]),
        (0x10, 8, fields [(0, x.fullMs % 2 ^ 32), (32, s.fullSeconds)])] o

/-- ALERT_CAUSE (Table 15-9). -/
def Mgmt.alert (x : Mgmt) : Nat := fields [(0, x.thermal.toNat), (1, x.attention.toNat), (2, x.quench.toNat)]

/-- Management block (Tables 15-8, 15-9). -/
def State.mgmtReg (s : State) (o : Nat) : Nat :=
  let x := s.mgmt
  pick [(0x00, 4, fields [(0, x.err.toNat), (1, x.identity.toNat), (2, x.debugOpen.toNat), (3, x.mgmtKey.isSome.toNat),
          (4, x.standby.toNat), (5, (!x.queue.isEmpty).toNat)]),
        (0x04, 4, x.errCode), (0x08, 4, x.alert), (0x0C, 4, fields [(0, x.attnCode), (16, x.attnCount)]), (0x10, 8, x.logNext),
        (0x18, 8, x.logOldest), (0x20, 8, x.logDropped.toNat),
        (0x28, 4, fields [(0, x.fuseFw), (7, x.fuseKey), (11, x.debugLock.toNat), (12, x.rootSet.toNat)]), (0x2C, 4, 0x00013A7D),
        (0x30, 8, s.htime.toNat), (0x38, 8, x.lastNonce.toNat), (0x40, 8, x.uniqueId.toNat)] o

/-- The 32 bits at offset `o`, a multiple of 4, of configuration space. -/
def State.reg32 (s : State) (o : Nat) : Nat :=
  if o < 0x200000 then s.coreReg (o / 0x10000) (o % 0x10000)
  else if o < 0x1000000 then 0
  else if o < 0x1008000 then s.mcReg ((o - 0x1000000) / 0x1000) (o % 0x1000)
  else if o < 0x1010000 then 0
  else if o < 0x1016000 then s.mcReg (8 + (o - 0x1010000) / 0x1000) (o % 0x1000)
  else if o < 0x1020000 then 0
  else if o < 0x1022000 then s.mcReg (14 + (o - 0x1020000) / 0x1000) (o % 0x1000)
  else if o < 0x1040000 then 0
  else if o < 0x1060000 then s.pmemReg ((o - 0x1040000) / 0x4000) (o % 0x4000)
  else if o < 0x1080000 then 0
  else if o < 0x10C0000 then s.syncReg (o - 0x1080000)
  else if o < 0x1100000 then 0
  else if o < 0x1200000 then s.fabReg (o - 0x1100000)
  else if o < 0x1220000 then s.optReg (o - 0x1200000)
  else if o < 0x1300000 then 0
  else if o < 0x1308000 then s.rakeReg (o - 0x1300000)
  else if o < 0x1310000 then 0
  else if o < 0x1350000 then s.rakePartReg ((o - 0x1310000) / 0x8000) (o % 0x8000)
  else if o < 0x1400000 then 0
  else if o < 0x1420000 then s.snapReg ((o - 0x1400000) / 0x4000) (o % 0x4000)
  else if o < 0x1500000 then 0
  else if o < 0x1501000 then s.pwrReg (o - 0x1500000)
  else if o < 0x1510000 then 0
  else if o < 0x1518000 then s.energyReg ((o - 0x1510000) / 0x1000) (o % 0x1000)
  else if o < 0x1600000 then 0
  else if o < 0x1601000 then s.rstReg (o - 0x1600000)
  else if o < 0x1700000 then 0
  else if o < 0x1701000 then s.mgmtReg (o - 0x1700000)
  else 0

/-- Bytes of configuration space. -/
def State.regBytes (s : State) (a n : Nat) : List Byte :=
  let first := (a - cfgBase) / 4 * 4
  let words := (a - cfgBase + n + 3) / 4 - first / 4
  let bs := (List.range words).flatMap fun i => leBytes (s.reg32 (first + 4 * i)) 4
  (bs.drop (a % 4)).take n

end Sys2Proof.Machine
end

