-- ==== Sys2Proof/Machine/MemOps.lean ====
section
/-! DEFINITION. Requests to memory: the address map, region tables, epoch guards, the pan cache, memory-side adders, deferral
and error protection (R126 to R154). -/

namespace Sys2Proof.Machine

open Sys2Proof.Num

/-- DRAIN_LATE (Table 11-10). -/
def Err.drainLate : Code := 0x0903

/-- The mapped ranges of Table 06-2. -/
inductive Zone
  | ls (c : Nat)
  | pan
  | sync
  | config
  | hbm
  | lpddr
  | none
deriving DecidableEq, Repr

/-- The range that an address lies in (R126). -/
def zoneAt (a : Nat) : Zone :=
  if a < 0x000008000000 then (if a % 0x400000 < 0x300000 then .ls (a / 0x400000) else .none)
  else if 0x000100000000 ≤ a ∧ a < 0x0001C0000000 then .pan
  else if 0x001000000000 ≤ a ∧ a < 0x001000080000 then .sync
  else if cfgBase ≤ a ∧ a < cfgBase + cfgSize then .config
  else if 0x010000000000 ≤ a ∧ a < 0x014800000000 then .hbm
  else if 0x020000000000 ≤ a ∧ a < 0x030000000000 then .lpddr
  else .none

/-- The range that `n` bytes from `a` lie in. -/
def zoneOf (a n : Nat) : Zone :=
  if n = 0 ∨ zoneAt a = zoneAt (a + n - 1) then zoneAt a else .none

/-- R128: the place of an HBM4 address. -/
def hbmPlace (a : Nat) : HbmPlace :=
  let o := a - 0x010000000000
  let p := o / 4096
  let x := p / 6 * 4096 + o % 4096
  { stack := p % 6, sp := p / 6, addr := x, pch := ((x / 2 ^ 8) ^^^ (x / 2 ^ 14)) % 64 }

/-- R128: the place of an LPDDR6 address. -/
def lpddrPlace (a : Nat) : LpddrPlace :=
  let o := a - 0x020000000000
  let p := o / 4096
  { pkg := p % 16, addr := p / 16 * 4096 + o % 4096 }

/-- Target of an address: 0 to 7 pan slices, 8 to 13 HBM4, 14 and 15 LPDDR6, 16 + c the local store of core c (R128). -/
def targetOf (a : Nat) : Nat :=
  match zoneAt a with
  | .ls c => 16 + c
  | .pan => (a - 0x000100000000) / 0x18000000
  | .hbm => 8 + (hbmPlace a).stack
  | .lpddr => 14 + (lpddrPlace a).pkg / 8
  | _ => 0

/-- Pieces of a range that do not cross a multiple of `u`: address and length. -/
def pieces (u a n : Nat) : List (Nat × Nat) :=
  if n = 0 then []
  else (List.range ((a + n - 1) / u + 1 - a / u)).map fun i =>
    let lo := max a (u * (a / u + i))
    (lo, min (a + n) (u * (a / u + i + 1)) - lo)

/-- Poison unit of a range (Table 06-10). -/
def poisonUnit (a : Nat) : Nat :=
  match zoneAt a with
  | .hbm => 32
  | _ => 64

/-- A unit of the range is poisoned. -/
def Mem.poisoned (m : Mem) (a n : Nat) : Bool :=
  let u := poisonUnit a
  (pieces u a n).any fun e => m.poison.get false (e.1 / u * u)

/-- The unit of an address marked poisoned (R154). -/
def Mem.mark (m : Mem) (a : Nat) : Mem :=
  let u := poisonUnit a
  { m with poison := m.poison.set false (a / u * u) true }

/-- Bytes as every requester sees them: a cached line before the tier (R141). -/
def Mem.peek (m : Mem) (a n : Nat) : List Byte :=
  (List.range n).map fun i =>
    match m.cache.get none ((a + i) / 128) with
    | some l => (l.data[(a + i) % 128]?).getD 0
    | none => m.bytes.get 0 (a + i)

/-- The canonical form of memory: every table in its own. -/
def Mem.wf (m : Mem) : Bool := m.bytes.wf 0 && m.poison.wf false && m.cache.wf none && m.held.wf []

/-- Bytes written to the tier itself. -/
def Mem.poke (m : Mem) (a : Nat) (bs : List Byte) : Mem :=
  { m with bytes := m.bytes.setList 0 a bs, poison := clearPoison m.poison (poisonUnit a) a bs.length }

/-- Slices in which a partition has cache granules, ascending (R140). -/
def PMem.cacheSlices (x : PMem) : List Nat := (List.range 8).filter fun i => decide (0 < (x.panSplit.get {} i).cache)

/-- The slice that may hold an address (R140). -/
def PMem.sliceOf (x : PMem) (a : Nat) : Nat :=
  let l := x.cacheSlices
  (l[a / 4096 % l.length]?).getD 0

/-- Sets of a partition in a slice: 16 MiB granules of 16 ways of 128 bytes (R140). -/
def PMem.setsOf (x : PMem) (slice : Nat) : Nat := (x.panSplit.get {} slice).cache * 8192

/-- The set of a line within the slice; which one it is, is open (log entry 2). -/
def PMem.setOf (x : PMem) (line : Nat) : Nat × Nat :=
  let sl := x.sliceOf (128 * line)
  (sl, Config.cacheSet (x.setsOf sl) line % x.setsOf sl)

/-- Lines of partition `p` in the set of `line`. -/
def State.setLines (s : State) (p line : Nat) : List (Nat × CLine) :=
  let x := (s.part p).mem
  s.mem.cache.filterMap fun e =>
    match e.2 with
    | some l => if l.part = p ∧ x.setOf e.1 = x.setOf line then some (e.1, l) else none
    | none => none

/-- A log record of memory with the MEM_FAULT registers of partition `p` (R138). -/
def State.memLog (s : State) (p : Option Nat) (a : LogArg) (src : Nat) : State :=
  let t := s.log a
  match p with
  | some q => t.modPart q fun x => { x with mem := x.mem.capture a.code (a.addr.getD 0) src }
  | none => t

/-- An error that the protection code of target `k` found (R154, Table 06-17). -/
def State.countEcc (s : State) (k : Nat) (e : Ecc) : State :=
  if 16 ≤ k then s
  else match e with
    | .clean => s
    | .corrected => s.modMc k fun m => { m with eccCorr := m.eccCorr + 1 }
    | .uncorrectable _ => s.modMc k fun m => { m with eccUncorr := m.eccUncorr + 1 }

/-- R143, R154, Table 06-27: a dirty line written back; `bad` is the byte at which that meets an uncorrectable error. A unit that
no write has replaced stays poisoned, and one that the slice found in error is reported with its address in the tier. -/
def State.writeBack (s : State) (line : Nat) (l : CLine) (bad : Option Nat) : State :=
  if !l.dirty then s
  else
    let a := 128 * line
    let k := (s.part l.part).mem.sliceOf a
    let found := bad.map (· % 128)
    let m : Mem := { s.mem with bytes := s.mem.bytes.setList 0 a l.data }
    let t : State := match found with
      | some o => ({ s with mem := m.mark (a + o) } : State).countEcc k (.uncorrectable 0)
      | none => { s with mem := m }
    match (found.toList ++ l.bad.filter fun o => s.mem.poisoned (a + o) 1).head? with
    | some o => t.memLog (some l.part)
        { code := Err.uncorrectable, unit := 0x80 + k, part := some l.part, addr := some (a + o) }
        (srcWord s.fab.id (0x80 + k) 1 false false 0 none)
    | none => t

/-- A unit found uncorrectable: poisoned, and remembered with the line where it is cached. -/
def State.foundBad (s : State) (a : Nat) : State :=
  let t : State := { s with mem := s.mem.mark a }
  match s.mem.cache.get none (a / 128) with
  | some l => { t with mem := { t.mem with cache := t.mem.cache.set none (a / 128) (some { l with bad := l.bad ++ [a % 128] }) } }
  | none => t

/-- A cached line put in its place, marked as used now. -/
def State.putLine (s : State) (line : Nat) (l : CLine) : State :=
  { s with mem := { s.mem with
    cache := s.mem.cache.set none line (some { l with age := s.mem.age + 1 }), age := s.mem.age + 1 } }

def State.dropLine (s : State) (line : Nat) : State :=
  { s with mem := { s.mem with cache := s.mem.cache.drop line } }

/-- R143: where the set of `line` already holds 12 other KEEP lines, the least recently used gives up its mark. -/
def State.yieldKeep (s : State) (p line : Nat) : State :=
  let ks := (s.setLines p line).filter fun e => e.2.keep && e.1 != line
  if ks.length < 12 then s
  else
    match ks.foldl (fun best e => match best with
      | none => some e
      | some b => if e.2.age < b.2.age then some e else best) none with
    | some e => { s with mem := { s.mem with cache := s.mem.cache.set none e.1 (some { e.2 with keep := false }) } }
    | none => s

/-- R140, R143: room for `line` in its set: which line without a KEEP mark gives way is open. -/
def State.makeRoom (s : State) (p line : Nat) (bad : Option Nat) : State :=
  let ls := s.setLines p line
  if ls.length < 16 then s
  else
    let ns := ls.filter fun e => !e.2.keep
    match ns[Config.victim s.mem.age % ns.length]? with
    | some e => (s.writeBack e.1 e.2 bad).dropLine e.1
    | none => s

/-- A line allocated from the tier (Table 06-6). -/
def State.allocLine (s : State) (p line : Nat) (keep : Bool) (bad : Option Nat) : State :=
  let t := s.makeRoom p line bad
  let u := if keep then t.yieldKeep p line else t
  u.putLine line { part := p, data := u.mem.bytes.getList 0 (128 * line) 128, dirty := false, keep := keep, age := 0 }

/-- R142: a cached read of bytes within one line. `hint`: 0 none, 1 STREAM, 2 KEEP, 3 LAST_USE. -/
def State.cacheRead (s : State) (p hint : Nat) (bad : Option Nat) (a n : Nat) : List Byte × State :=
  let line := a / 128
  match s.mem.cache.get none line with
  | some l =>
    let bs := (l.data.drop (a % 128)).take n
    (bs, if hint = 3 then s.dropLine line
         else if hint = 1 then s
         else if hint = 2 then (s.yieldKeep p line).putLine line { l with keep := true }
         else s.putLine line l)
  | none =>
    (s.mem.bytes.getList 0 a n, if hint = 1 ∨ hint = 3 then s else s.allocLine p line (hint == 2) bad)

/-- `old` with `new` from position `k` on. -/
def patch (old : List Byte) (k : Nat) (new : List Byte) : List Byte := old.take k ++ new ++ old.drop (k + new.length)

/-- R142: a cached write of bytes within one line. -/
def State.cacheWrite (s : State) (p hint : Nat) (bad : Option Nat) (a : Nat) (bs : List Byte) : State :=
  let line := a / 128
  let clear (t : State) : State := { t with mem := { t.mem with
    poison := clearPoison t.mem.poison (poisonUnit a) a bs.length } }
  let put (t : State) (l : CLine) : State :=
    clear (t.putLine line { l with data := patch l.data (a % 128) bs, dirty := true, keep := l.keep || hint == 2 })
  match s.mem.cache.get none line with
  | some l => put (if hint = 2 then s.yieldKeep p line else s) l
  | none =>
    if hint = 1 ∨ hint = 3 then { s with mem := s.mem.poke a bs }
    else
      let t := s.allocLine p line (hint == 2) bad
      match t.mem.cache.get none line with
      | some l => put t l
      | none => t

/-- R141: every cached line in `[a, b)` written back and dropped. -/
def State.flushRange (s : State) (a b : Nat) : State :=
  s.mem.cache.foldl (fun t e =>
    match e.2 with
    | some l => if a ≤ 128 * e.1 ∧ 128 * e.1 < b then (t.writeBack e.1 l none).dropLine e.1 else t
    | none => t) s

/-- R143: every dirty line of a partition written back; with `drop`, every line invalidated. -/
def State.flushPart (s : State) (p : Nat) (drop : Bool) : State :=
  s.mem.cache.foldl (fun t e =>
    match e.2 with
    | some l =>
      if l.part = p then
        let u := t.writeBack e.1 l none
        if drop then u.dropLine e.1
        else { u with mem := { u.mem with cache := u.mem.cache.set none e.1 (some { l with dirty := false, bad := [] }) } }
      else t
    | none => t) s

/-- Bytes counted at each target of a range (Table 06-17). -/
def State.countBytes (s : State) (a n : Nat) (write : Bool) : State :=
  (pieces 4096 a n).foldl (fun t e =>
    let k := targetOf e.1
    if 16 ≤ k then t
    else t.modMc k fun m => if write then { m with wrBytes := m.wrBytes + BitVec.ofNat 64 e.2 }
      else { m with rdBytes := m.rdBytes + BitVec.ofNat 64 e.2 }) s



/-- Element types that an adder serves (Table 06-8). -/
def adderTypes : List Nat := [9, 7, 10, 11]

/-- Bytes of an element of such a type. -/
def adderSize (ty : Nat) : Nat := if ty = 7 then 2 else if ty = 11 then 8 else 4

/-- Larger of two BF16 codes (Table 06-8). -/
def maxBF (a b : Nat) : Nat :=
  if (bf a).isNan || (bf b).isNan then 0x7FC0 else if (bf a).ltz (bf b) then b else a

/-- R144, R145, Table 06-8: one element combined, with the conditions met. A sum is a conversion of the exact sum; a maximum
converts nothing (log entry 76). -/
def adderOp (ty op old new : Nat) : Nat × Cvt :=
  let smax (w : Nat) : Nat := if sext w old < sext w new then new else old
  match ty, op with
  | 9, 0 => fmtFP32.convert Mode.ieee 0 ((f32 old).add (f32 new))
  | 9, _ => (maxF32 old new, {})
  | 7, 0 => fmtBF16.convert Mode.ieee 0 ((bf old).add (bf new))
  | 7, _ => (maxBF old new, {})
  | 10, 0 => ((old + new) % 2 ^ 32, {})
  | 10, _ => (smax 32, {})
  | _, 0 => ((old + new) % 2 ^ 64, {})
  | _, _ => (smax 64, {})

/-- R144: the request is one that an adder performs. -/
def adderOk (ty op a n : Nat) : Bool :=
  decide (ty ∈ adderTypes) && decide (op < 2) && a % adderSize ty == 0 && n % adderSize ty == 0

/-- Bytes replaced where they are held: in the cached line, else in the tier. -/
def State.replace (s : State) (a : Nat) (bs : List Byte) : State :=
  match s.mem.cache.get none (a / 128) with
  | some l => s.putLine (a / 128) { l with data := patch l.data (a % 128) bs, dirty := true }
  | none => { s with mem := { s.mem with bytes := s.mem.bytes.setList 0 a bs } }

/-- R145: who performs an addition: the slice that holds the line, or the controller. -/
def State.adderAt (s : State) (a : Nat) : Nat :=
  match s.mem.cache.get none (a / 128) with
  | some l => (s.part l.part).mem.sliceOf a
  | none => targetOf a

/-- R144: every element of `bs` combined into memory at `a`. -/
def State.applyAdd (s : State) (ty op : Nat) (a : Nat) (bs : List Byte) : State :=
  let w := adderSize ty
  (List.range (bs.length / w)).foldl (fun t i =>
    let x := a + w * i
    let r := adderOp ty op (leNat (t.mem.peek x w)) (leNat ((bs.drop (w * i)).take w))
    (t.replace x (leBytes r.1 w)).modMc (t.adderAt x) fun m => { m with cvt := m.cvt ||| r.2.bits }) s

/-- Partitions whose tables judge a request (R130). The dispatch processor reads for no partition when it loads a plan (log entry
65). -/
def State.judges (s : State) (r : Req) : List Nat :=
  if r.remote ∨ r.unit = 0x60 ∨ (0x70 ≤ r.unit ∧ r.unit < 0x80) ∨ (r.unit = unitDispatch ∧ r.part = none) then List.range 8
  else ((s.partOfUnit r.unit).or r.part).toList

/-- The entry that a request lies in: partition, index, entry. -/
structure Hit where
  part : Nat
  idx : Nat
  reg : Region
deriving DecidableEq, Repr

/-- Half of a PAIRED range. -/
def Region.half (g : Region) : Nat := (g.limit + 1 - g.base) / 2

/-- The whole range lies in the entry, and in one view of it (R130). -/
def Region.covers (g : Region) (a n : Nat) : Bool :=
  let e := a + max n 1 - 1
  g.valid && decide (g.base ≤ a) && decide (e ≤ g.limit)
    && (!g.paired || (a - g.base) / g.half == (e - g.base) / g.half)

/-- R130: the entry that holds a range, among partitions `ps`. -/
def State.hit (s : State) (ps : List Nat) (a n : Nat) : Option Hit :=
  ps.foldl (fun acc p => acc.or (((s.part p).mem.regions.findE fun _ g => g.covers a n).map fun e =>
    { part := p, idx := e.1, reg := e.2 })) none

/-- R133: the address that SIDE makes of a request's, and whether it is in the shadow view. -/
def Region.phys (g : Region) (a : Nat) : Nat × Bool :=
  if g.paired then
    let v := (a - g.base) / g.half
    let h := if g.side then 1 - v else v
    (g.base + h * g.half + (a - g.base) % g.half, v == 1)
  else (a, false)

/-- R130, Table 06-4: the entry grants the access. -/
def Region.grants (g : Region) (r : Req) : Bool :=
  if 0x70 ≤ r.unit ∧ r.unit < 0x80 ∧ !r.remote then
    (match r.kind with
      | .read => g.hostR
      | .write => g.hostW
      | _ => false)
  else if r.remote ∨ r.unit = 0x60 then
    (match r.kind with
      | .read => g.remR
      | .write => g.remW
      | .acc => g.remA
      | .fetch => false)
  else match r.kind with
    | .read | .fetch => g.r
    | .write => g.w
    | .acc => g.a

/-- KIND of Table 06-21. -/
def Kind.code : Kind → Nat
  | .read => 0 | .write => 1 | .acc => 2 | .fetch => 3

/-- How a request with PROV = 1 is treated (Table 06-5). -/
inductive Prov
  | committed | provisional | hold | stale
deriving DecidableEq, Repr

/-- R135: EPOCH_LO against the committed epoch number. -/
def provOf (prov : Bool) (lo : Nat) (committed : Word) : Prov :=
  if !prov then .committed
  else match (lo + 4 - committed.toNat % 4) % 4 with
    | 0 => .committed
    | 1 => .provisional
    | 2 => .hold
    | _ => .stale

/-- R137: the guard admits a request. -/
def Region.admits (g : Region) (k : Kind) (prov shadow : Bool) : Bool :=
  match k with
  | .read | .fetch => true
  | _ => !prov || g.guard == 1 || (g.guard == 2 && shadow)

/-- A refusal at a memory target (R138). -/
def State.memRefuse (s : State) (r : Req) (gov : Option Nat) (idx : Option Nat) (code : Code) : MemRes × State :=
  let src := srcWord (if r.remote then r.srcId else s.fab.id) r.unit r.kind.code r.remote r.prov r.epochLo idx
  (.refused code, s.memLog gov
    { code := code, unit := r.unit, srcId := if r.remote then some r.srcId else none, part := gov, addr := some r.addr,
      detail := src, prov := r.prov, remote := r.remote } src)

/-- Requests held at target `t`. -/
def State.heldAt (s : State) (t : Nat) : List Held := s.mem.held.get [] t

/-- The held requests of target `t` that count toward the 64 of R136: not those of an apply pass or a drain (R148, R282). -/
def State.counted (s : State) (t : Nat) : Nat := ((s.heldAt t).filter (·.timed)).length

/-- A request added to those held at its target. -/
def State.holdAt (s : State) (h : Held) : State :=
  let t := targetOf h.req.addr
  { s with mem := { s.mem with held := s.mem.held.set [] t (s.heldAt t ++ [h]) } }

/-- R136: a request held, unless it needs a place in the queue of its target and that is full. -/
def State.hold (s : State) (h : Held) : MemRes × State :=
  if h.timed ∧ 64 ≤ s.counted (targetOf h.req.addr) then (.full, s) else (.held, s.holdAt h)

/-- The class of the packet that a request came in. -/
def Req.cls (r : Req) : Option Nat :=
  match r.origin with
  | .packet _ cls _ _ _ _ => some cls
  | _ => none

/-- A tier serves requests: its domain is on and its controller admits them (R155). -/
def State.tierOn (s : State) (a n : Nat) : Bool :=
  match zoneAt a with
  | .ls c => s.domainOn c
  | .pan => (pieces 0x18000000 (a - 0x000100000000) n).all fun e =>
      let m := s.mc (e.1 / 0x18000000)
      m.online && !m.training
  | _ => (pieces 4096 a n).all fun e =>
      let k := targetOf e.1
      let m := s.mc k
      m.online && !m.training && (decide (k < 14) || m.encReady)

/-- R148: an apply pass of partition `p` runs and a record of its epoch targets a line of the range. -/
def Part.passHolds (x : Part) (a n : Nat) : Bool :=
  match x.commit with
  | none => false
  | some cm => x.mem.deferLog.any fun r =>
      r.epoch == cm.epoch && decide (r.phys / 64 * 64 < a + n) && decide (a < (r.phys + r.data.length + 63) / 64 * 64)

/-- R282: the range lies in pages of a SNAP region's shadow view that the running drain has not captured. -/
def Part.drainMeets (x : Part) (h : Hit) (shadow : Bool) (off n : Nat) : Bool :=
  match x.snap.drain with
  | none => false
  | some d => !d.sending && shadow && (x.snap.regions.get {} h.idx).snap
      && (pieces 4096 off n).any fun e => !d.pages.contains (h.idx, e.1 / 4096)

/-- R108: banks of a local-store range. -/
def banksOf (a n : Nat) : List Nat := (linesOf (a % 0x400000) n).map bankOf

/-- R108: why an access to a local store is refused, if it is. -/
def State.bankRefusal (s : State) (r : Req) : Option Code :=
  match zoneAt r.addr with
  | .ls c =>
    if !r.remote ∧ r.unit < 0x40 ∧ r.unit / 2 = c then
      (match r.mask with
        | some m => if (banksOf r.addr r.len).all fun b => m.getLsbD b then none else some Err.maskBreach
        | none => none)
    else if (banksOf r.addr r.len).all fun b => (s.core c).extBanks.getLsbD b then none
    else some Err.extBank
  | _ => none

/-- R146: a record of the deferral log. -/
def State.deferRec (s : State) (r : Req) (h : Hit) (phys : Nat) (prov : Bool) : DeferRec where
  srcId := r.orderId.getD (if r.remote then r.srcId else s.fab.id)
  unit := r.unit
  seq := r.seq
  addr := r.addr
  phys := phys
  data := r.data
  ty := r.ty
  op := r.op
  epoch := (s.part h.part).epoch + 1
  prov := prov
  det := h.reg.det

/-- R141, R142, R144: an admitted request performed at its physical address. -/
def State.perform (s : State) (r : Req) (h : Hit) (phys : Nat) : MemRes × State :=
  let n := r.len
  match r.kind with
  | .acc => (.ok [], (s.applyAdd r.ty r.op phys r.data).countBytes phys n true)
  | .write =>
    let t := if h.reg.cache then
        (pieces 128 phys n).foldl (fun u e =>
          u.cacheWrite h.part r.hint r.evictBad e.1 ((r.data.drop (e.1 - phys)).take e.2)) s
      else { s with mem := s.mem.poke phys r.data }
    (.ok [], t.countBytes phys n true)
  | _ =>
    let x := if h.reg.cache then
        (pieces 128 phys n).foldl (fun u e =>
          let q := u.2.cacheRead h.part r.hint r.evictBad e.1 e.2
          (u.1 ++ q.1, q.2)) (([] : List Byte), s)
      else (s.mem.bytes.getList 0 phys n, s)
    (.ok x.1, x.2.countBytes phys n false)

/-- R154: the access, unless its units are poisoned or its protection code fails. -/
def State.protect (s : State) (r : Req) (h : Hit) (phys : Nat) : MemRes × State :=
  let k := s.adderAt phys
  match r.ecc with
  | .uncorrectable off =>
    ((s.foundBad (phys + min off (r.len - 1))).countEcc k r.ecc).memRefuse r (some h.part) (some h.idx) Err.uncorrectable
  | _ =>
    if r.kind ≠ .write ∧ s.mem.poisoned phys r.len then s.memRefuse r (some h.part) (some h.idx) Err.uncorrectable
    else (s.countEcc k r.ecc).perform r h phys

/-- What follows the guards: banks, adders, deferral, the drain, protection (R108, R144, R146, R149, R282). -/
def State.accept (s : State) (r : Req) (h : Hit) (phys : Nat) (shadow prov : Bool) (since : Option Nat) : MemRes × State :=
  let x := s.part h.part
  let ref := s.memRefuse r (some h.part) (some h.idx)
  let off := (phys - h.reg.base) % h.reg.half
  match s.bankRefusal r with
  | some c => ref c
  | none =>
    let ls := match zoneAt r.addr with
      | .ls _ => true
      | _ => false
    if r.kind = .acc ∧ (ls = true ∨ !adderOk r.ty r.op r.addr r.data.length) then ref Err.adderType
    else if r.kind = .acc ∧ (prov ∨ h.reg.det) then
      let d := s.deferRec r h phys prov
      if x.mem.deferSize < x.mem.used + d.bytes then ref Err.deferFull
      else (.ok [], s.modPart h.part fun y => { y with mem := { y.mem with deferLog := y.mem.deferLog ++ [d] } })
    else if (r.kind = .write ∨ r.kind = .acc) ∧ x.drainMeets h shadow off r.len then
      if x.snap.stall then
        let q := s.hold { req := r, since := since.getD s.now, timed := false, part := h.part }
        (q.1, q.2.modSnap h.part fun y => { y with stalling := true })
      else ((s.drainStop h.part).snapEvent h.part Err.drainLate).protect r h phys
    else s.protect r h phys

/-- R130 to R137: a request judged by the entry that holds it. -/
def State.judge (s : State) (r : Req) (h : Hit) (since : Option Nat) : MemRes × State :=
  let x := s.part h.part
  let ref := s.memRefuse r (some h.part) (some h.idx)
  let ph := h.reg.phys r.addr
  if !h.reg.grants r then ref Err.permission
  else
    let pv := provOf r.prov r.epochLo x.epoch
    if pv = .hold then s.hold { req := r, since := since.getD s.now, timed := true, part := h.part }
    else if pv = .stale then ref Err.epochStale
    else if !h.reg.admits r.kind (pv == .provisional) ph.2 then ref Err.epochGuard
    else if !s.tierOn ph.1 r.len then ref Err.tierOffline
    else if x.passHolds ph.1 r.len then
      s.hold { req := r, since := since.getD s.now, timed := false, part := h.part, pass := true }
    else s.accept r h ph.1 ph.2 (pv == .provisional) since

/-- Partition of a requester of this module; none for a remote one. -/
def State.ownPart (s : State) (r : Req) : Option Nat := if r.remote then none else (s.partOfUnit r.unit).or r.part

/-- A request as a requester of the sync unit. -/
def State.reqWho (s : State) (r : Req) : SWho :=
  { unit := r.unit, part := s.ownPart r, remote := r.remote, srcId := r.srcId, prov := r.prov, epochLo := r.epochLo }

/-- R159: an access through the counter window. -/
def State.syncReq (s : State) (r : Req) : MemRes × State :=
  let who := s.reqWho r
  let i := (r.addr - 0x001000000000) / 8
  if r.kind = .acc then s.memRefuse r (s.ownPart r) none Err.adderType
  else if r.len ≠ 8 ∨ r.addr % 8 ≠ 0 then (.refused Err.syncAlign, s.syncRefuse who r.kind.code i Err.syncAlign r.addr)
  else if r.kind = .write then
    match s.counterSet who i (BitVec.ofNat 64 (leNat r.data)) with
    | (none, t) => (.ok [], t)
    | (some c, t) => (.refused c, t)
  else match s.counterRead who i with
    | (.ok v, t) => (.ok (leBytes v.toNat 8), t)
    | (.error c, t) => (.refused c, t)

/-- Code with which a block of configuration space refuses a write that it does not admit (R122, R156, R182, R216, R248,
R270, R293, R337, R354, R378). -/
def cfgCode (a : Nat) : Code :=
  let o := a - cfgBase
  if o < 0x1080000 then Err.permission
  else if o < 0x1100000 then Err.watchOwner
  else if o < 0x1200000 then Err.routeLoad
  else if o < 0x1300000 then 0x070C
  else if o < 0x1400000 then 0x0801
  else if o < 0x1500000 then 0x090A
  else if o < 0x1600000 then 0x0B09
  else if o < 0x1700000 then 0x0C08
  else 0x0D0F

/-- A request to the tiers, the counter window or configuration space, where it reads (R126 to R149). `since`: when a request
that is judged again was first held. -/
def State.memReq (s : State) (r : Req) (since : Option Nat := none) : MemRes × State :=
  match zoneOf r.addr r.len with
  | .none => s.memRefuse r (s.ownPart r) none Err.noRegion
  | .sync => s.syncReq r
  | .config =>
    (match r.kind with
      | .acc => s.memRefuse r (s.ownPart r) none Err.adderType
      | .write =>
        let mem := decide (cfgBase + 0x1000000 ≤ r.addr) && decide (r.addr < cfgBase + 0x1080000)
        s.memRefuse r (if mem then s.ownPart r else none) none (cfgCode r.addr)
      | _ => (.ok (s.regBytes r.addr r.len), s))
  | z =>
    let own := s.ownPart r
    if (z = .hbm ∨ z = .lpddr) ∧ !s.tierOn r.addr r.len then s.memRefuse r own none Err.tierOffline
    else if r.cls = some 2 ∧ since.isNone ∧ 64 ≤ s.counted (targetOf r.addr) then (.full, s)
    else match s.hit (s.judges r) r.addr r.len with
      | none => s.memRefuse r own none Err.noRegion
      | some h => s.judge r h since

end Sys2Proof.Machine
end

