-- ==== Sys2Proof/Machine/Receive.lean ====
section
/-! DEFINITION. The receive side of the endpoint: windows, duplicates, acknowledgements (R200 to R205, R211). -/

namespace Sys2Proof.Machine

/-- What a target does with a packet (R202, R205). `full`: the target takes no request now (R136). -/
inductive Perf
  | ok
  | refused (c : Code)
  | held
  | full
deriving DecidableEq, Repr

/-- R204: an ACK whose SEQ is NEXT; nothing is left to acknowledge. -/
def State.sendAck (s : State) (key : RxKey) : State :=
  match s.fab.rxOf key with
  | none => s
  | some h =>
    let t := s.modRx key fun y => { y with unacked := 0, unackedBytes := 0, oldest := none }
    t.sendCtl (mkAck s.fab.id key (h.base.getD 0) false)

/-- R202: NEXT moves past what has been performed. -/
def RxHalf.slide : Nat → RxHalf → RxHalf
  | 0, h => h
  | n + 1, h =>
    if h.map.getLsbD 0 then
      RxHalf.slide n { h with base := h.base.map fun b => (b + 1) % 2 ^ 16, map := h.map >>> 1 }
    else h

/-- R202, R204: packet SEQ performed: marked, counted, and acknowledged at once in class 0 or once 8 packets or 64 KiB
are. A half that has been reset has no number to perform (R207). -/
def State.performed (s : State) (key : RxKey) (seq cls len : Nat) : State :=
  if (s.fab.rxOf key).all fun h => h.base.isNone then s
  else
  let t := s.modRx key fun h =>
    let d := (seq + 2 ^ 16 - h.base.getD 0) % 2 ^ 16
    RxHalf.slide 64 { h with
      map := h.map ||| BitVec.ofNat 64 (2 ^ d), unacked := h.unacked + 1, unackedBytes := h.unackedBytes + len
      oldest := h.oldest.or (some s.now), held := h.held.filter fun e => e.1 != seq }
  match t.fab.rxOf key with
  | none => t
  | some h => if cls = 0 ∨ 8 ≤ h.unacked ∨ 65536 ≤ h.unackedBytes then t.sendAck key else t

/-- R205: the ACK of a packet held at its target. -/
def State.heldAck (s : State) (key : RxKey) (seq : Nat) : State :=
  (s.modRx key fun h => { h with held := (h.held.filter fun e => e.1 != seq) ++ [(seq, s.now)] }).sendCtl
    (mkAck s.fab.id key seq true)

/-- R202, R204, R205: the outcome of a packet at its target, told to its source. -/
def State.outcome (s : State) (x : Pkt) (r : Perf) : State :=
  match r with
  | .ok => s.performed x.rxKey x.seq x.cls x.len
  | .refused c => (s.sendCtl (mkNak s.fab.id x c)).performed x.rxKey x.seq x.cls x.len
  | .held => s.heldAck x.rxKey x.seq
  | .full => s

/-- The answer to a request held at a target. One whose context was reset since is not in its half's window (R205, R207). -/
def State.heldOutcome (s : State) (x : Pkt) (r : Perf) : State :=
  if (s.fab.rxOf x.rxKey).any fun h => h.held.any fun e => e.1 == x.seq then s.outcome x r else s

/-- A packet dropped at the endpoint and counted (R202, R203). -/
def State.countDrop (s : State) : State := { s with fab := { s.fab with drops := s.fab.drops + 1 } }

/-- R200: the receive half of a packet; none when no context is free. -/
def State.allocRx (s : State) (key : RxKey) : Option State :=
  match s.fab.rxOf key with
  | some _ => some (s.modRx key fun h => { h with last := s.now })
  | none =>
    let has := match key with
      | .uni id => (s.fab.txOf (.uni id)).isSome
      | .group .. => false
    if has || decide (s.fab.contexts < 4096) then
      some { s with fab := { s.fab with rx := s.fab.rx ++ [({ key := key, last := s.now } : RxHalf)] } }
    else none

/-- A packet is this module's to take: its logical ID in DST[13:0], or a group that delivers the type here (R186, R208). -/
def State.mine (s : State) (x : Pkt) : Bool :=
  if x.mcast then (s.fab.groups.get {} (x.dst % 2 ^ 12)).takes x else x.dst % 2 ^ 14 == s.fab.id

/-- A packet of type `ty` at its destination: header, fence, context, window, then its target (R187, R200 to R205,
R211). -/
def State.receive (s0 : State) (ty : Nat) (x : Pkt) (perf : State → Perf × State) : Step :=
  let s := s0.takenIn x
  if x.ty ≠ ty ∨ !s0.mine x then idle s0
  else if !x.formOk then done (.refused Err.hdrForm) (s.dropNak Err.hdrForm x)
  else if (s.fab.routes.get {} s.fab.id).fence then done (.refused Err.fenced) (s.dropNak Err.fenced x s.fab.id)
  else
    match s.allocRx x.rxKey with
    | none => done (.refused Err.contextFull) (s.dropNak Err.contextFull x)
    | some t =>
      let h := (t.fab.rxOf x.rxKey).getD { key := x.rxKey }
      if h.base.isNone ∧ !x.syn then idle t.countDrop
      else
        let u := if h.base.isNone then t.modRx x.rxKey fun y => { y with base := some x.seq } else t
        let d := (x.seq + 2 ^ 16 - h.base.getD x.seq) % 2 ^ 16
        if 2 ^ 15 ≤ d ∨ (d < 64 ∧ h.map.getLsbD d) then done (.ok []) (u.sendAck x.rxKey)
        else if 64 ≤ d then idle u.countDrop
        else if h.held.any fun e => e.1 == x.seq then done .held (u.heldAck x.rxKey x.seq)
        else
          let r := perf u
          let v := r.2.outcome x r.1
          match r.1 with
          | .ok => served v
          | .refused c => done (.refused c) v
          | .held => done .held v
          | .full => done .full s0

/-- R202: a READ_RESP that answers READ_REQ `seq` of module `dst`. -/
def State.sendResp (s : State) (dst cls seq off : Nat) (data : List Byte) : State :=
  let x : Pkt := { dst := dst, src := s.fab.id, cls := cls, ty := tyReadResp, len := data.length, seq := seq,
                   offset := off, payload := data }
  match s.way x with
  | .link k => s.toPort k ((s.fab.routes.get {} dst).dateline.getLsbD k) x
  | .toLocal => s
  | .drop c => s.fabDrop c x

end Sys2Proof.Machine
end

