-- ==== Sys2Proof/Machine/MoverOps.lean ====
section
/-! DEFINITION. What the movers ask of memory, and what becomes of the answers (R109, R116, R118, R138); requests judged again
(R135, R148, R282). -/

namespace Sys2Proof.Machine

open Sys2Proof.Num

def MovePart.code : MovePart → Nat
  | .elems => 0 | .scales => 1 | .index => 2 | .given => 3

/-- The active descriptor of a move. -/
def State.activeOf (s : State) (c m seq : Nat) : Option Active := (s.mover c m).active.find? fun a => a.seq == seq

/-- Source row of walk row `k1` (R109). -/
def Active.srcRowNo (a : Active) (k1 : Nat) : Option Nat :=
  if a.d.op = .gather then a.index.get none k1 else some k1

/-- R109: address and length of what a move reads; none where the descriptor has no such bytes. From another module it takes whole
packed groups (R396). -/
def Active.readSpan (a : Active) (x : Move) : Option (Nat × Nat) :=
  let d := a.d
  let w := d.srcTy.bits
  if d.op = .fill ∨ d.n2 ≤ x.k2 ∨ x.n = 0 then none
  else match x.what with
    | .elems =>
      if x.k1 < d.n1 ∧ x.k0 + x.n ≤ d.n0 ∧ (!d.srcRemote || (packOk d.srcTy x.k0 && packOk d.srcTy x.n)) then
        (a.srcRowNo x.k1).map fun r =>
          (d.srcRow x.k2 r + w * x.k0 / 8, (w * (x.k0 + x.n) + 7) / 8 - w * x.k0 / 8)
      else none
    | .scales =>
      if d.srcSc.len ≠ 0 ∧ x.k1 < d.n1 ∧ (x.k0 + x.n) * d.srcSc.len ≤ d.n0 then
        (a.srcRowNo x.k1).map fun r =>
          (d.srcScale + scaleIndex d.srcSc d.n0 (x.k2 * d.n1 + r) (x.k0 * d.srcSc.len), x.n)
      else none
    | .index =>
      if (d.op = .gather ∨ d.op = .scatter) ∧ x.k0 + x.n ≤ d.n1 then some (d.index + 4 * x.k0, 4 * x.n) else none
    | .given =>
      if d.converts ∧ !d.auto ∧ d.dstSc.len ≠ 0 ∧ x.k1 < d.rows ∧ (x.k0 + x.n) * d.dstSc.len ≤ d.cols then
        (a.dstRowNo x.k1).map fun r =>
          (d.dstScale + scaleIndex d.dstSc d.cols (x.k2 * d.rows + r) (x.k0 * d.dstSc.len), x.n)
      else none

/-- The module that a move's bytes lie at: none for this one (R109). -/
def Active.readAt (a : Active) (what : MovePart) : Option Nat :=
  match what with
  | .elems | .scales => if a.d.srcRemote then some a.d.srcId else none
  | .given => if a.d.dstRemote then some a.d.dstId else none
  | .index => none

/-- Bytes read put into the buffers of a descriptor. -/
def Active.fill (a : Active) (what k0 addr : Nat) (bs : List Byte) : Active :=
  let put (k : Nat) : Tab (Option Byte) := a.buf.setList none k (bs.map some)
  match what with
  | 0 => { a with buf := put addr }
  | 1 => { a with buf := put (scaleKey addr) }
  | 2 => { a with index := (List.range (bs.length / 4)).foldl (fun t i =>
      t.set none (k0 + i) (some (leNat ((bs.drop (4 * i)).take 4)))) a.index }
  | _ => { a with buf := put (givenKey addr) }

/-- What a move writes: address, bytes, the part covered, and the flags of its conversions. -/
structure Put where
  addr : Nat
  data : List Byte
  cover : Cover
  flags : Cvt
deriving DecidableEq, Repr

/-- R109: SCATTER to this module's memory writes rows, and their scales, in increasing k1. `n` elements or scale bytes make
a row. -/
def Active.inOrder (a : Active) (scale : Bool) (k1 n : Nat) : Bool :=
  a.d.op != .scatter || a.d.dstRemote ||
    decide (k1 * n ≤ (a.covered.filter fun c => c.scale == scale && decide (c.k1 < k1)).foldl (fun n c => n + c.n) 0)

/-- A row that ends within a byte: a transpose to FP4 or FP6 may make one, and no rule says what the rest of that byte takes (log
entry 98). -/
def padRow (ad bits n : Nat) (bs : List Byte) : List Byte :=
  let used := bits * n % 8
  if used = 0 then bs
  else bs.mapIdx fun i b =>
    if i + 1 = bs.length then b ||| BitVec.ofNat 8 (Config.padBits (ad + i) * 2 ^ used) else b

/-- R109: destination bytes of a move; none where sources are missing, the part is not whole bytes, or it is written. -/
def Active.put (a : Active) (x : Move) : Option Put :=
  let d := a.d
  if a.stopped ∨ d.n2 ≤ x.k2 ∨ x.n = 0 then none
  else match x.what with
    | .elems =>
      let cv : Cover := { scale := false, k2 := x.k2, k1 := x.k1, k0 := x.k0, n := x.n }
      if x.k1 < d.rows ∧ x.k0 + x.n ≤ d.cols ∧ d.dstTy.bits * x.k0 % 8 = 0
          ∧ (d.dstTy.bits * x.n % 8 = 0 ∨ x.k0 + x.n = d.cols) ∧ cv.fresh a.covered ∧ a.inOrder false x.k1 d.cols then
        match a.dstAddr x.k2 x.k1 x.k0, a.rowBytes x.k2 x.k1 x.k0 x.n with
        | some ad, some r => some { addr := ad, data := padRow ad d.dstTy.bits x.n r.1, cover := cv, flags := r.2 }
        | _, _ => none
      else none
    | .scales =>
      let cv : Cover := { scale := true, k2 := x.k2, k1 := x.k1, k0 := x.k0, n := x.n }
      if d.writesScales ∧ x.k1 < d.scaleRows ∧ x.k0 + x.n ≤ d.scaleCols ∧ cv.fresh a.covered
          ∧ a.inOrder true x.k1 d.scaleCols then
        match a.scaleAddr x.k2 x.k1 x.k0, a.scaleBytes x.k2 x.k1 x.k0 x.n with
        | some ad, some bs => some { addr := ad, data := bs, cover := cv, flags := Cvt.none }
        | _, _ => none
      else none
    | _ => none

/-- An active descriptor replaced. -/
def State.modActive (s : State) (c m seq : Nat) (g : Active → Active) : State :=
  s.modMover c m fun x => { x with active := x.active.map fun a => if a.seq = seq then g a else a }

/-- R116: the tag of a descriptor whose requests carry PROV. -/
def State.moveProv (s : State) (c : Nat) (a : Active) : Option Word := provTag (s.env c) a.tag

/-- A mover's request to memory. -/
def State.moveReq (s : State) (x : Move) (a : Active) (kind : Kind) (addr len : Nat) (data : List Byte) (ecc : Ecc)
    (evictBad : Option Nat) : Req where
  unit := 2 * x.c + x.m
  part := s.partOfCore x.c
  kind := kind
  addr := addr
  len := len
  data := data
  prov := (s.moveProv x.c a).isSome
  epochLo := if (s.moveProv x.c a).isSome then a.tag.toNat % 4 else 0
  hint := a.d.hint
  op := a.d.aux % 4
  ty := a.d.dstTy.code
  seq := a.seq
  mask := some a.d.mask
  ecc := ecc
  evictBad := evictBad
  origin := .desc x.c x.m x.seq x.what.code x.k0

/-- R138: a refusal of a descriptor that is still active; one that a squash has cancelled halts nothing (Table 06-27). -/
def State.descRefused (s : State) (c m seq : Nat) (code : Code) : State :=
  match s.activeOf c m seq with
  | some a => if a.stopped then s else s.moverRefused c m seq code
  | none => s

/-- The packet of a held request, as far as its answer needs it. -/
def Req.pkt (r : Req) : Option Pkt :=
  match r.origin with
  | .packet src cls vc seq dst mcast => some
      { dst := dst, src := src, cls := cls, vc := vc, ty := if r.kind = .read then tyReadReq else tyWrite, len := r.len,
        mcast := mcast, seq := seq, offset := r.addr }
  | _ => none

/-- The answer to a request reaches where it came from. -/
def State.settle (s : State) (r : Req) (x : MemRes) : State :=
  match x with
  | .held | .full => s
  | .ok bs =>
    (match r.origin with
      | .plain => s
      | .desc c m seq what k0 =>
        if r.kind = .read then s.modActive c m seq fun a => a.fill what k0 r.addr bs else s
      | .packet src cls _ seq _ _ =>
        let t := if r.kind = .read then s.sendResp src cls seq r.addr bs else s
        (match r.pkt with
          | some p => t.heldOutcome p .ok
          | none => t))
  | .refused c =>
    (match r.origin with
      | .plain => s
      | .desc k m seq _ _ => s.descRefused k m seq c
      | .packet .. =>
        (match r.pkt with
          | some p => s.heldOutcome p (.refused c)
          | none => s))

/-- The held requests without those that `q` selects at their targets. -/
def State.dropHolds (s : State) (q : Nat → Held → Bool) : State :=
  { s with mem := { s.mem with
    held := (s.mem.held.mapVals fun k l => l.filter fun h => !q k h).filter fun e => !e.2.isEmpty } }

/-- Requests taken from the held ones are judged again; one that finds its queue full stays parked there. -/
def State.judgeAgain (s : State) (l : List Held) : State :=
  l.foldl (fun u h =>
    let r := u.memReq h.req (if h.parked then none else some h.since)
    if r.1 = .full then u.holdAt { h with timed := false, parked := true } else r.2.settle h.req r.1) s

/-- R136: parked requests are judged again as far as their targets have places free. -/
def State.readmit (s : State) : State :=
  let l := s.mem.held.flatMap fun e => (e.2.filter (·.parked)).take (64 - s.counted e.1)
  if l.isEmpty then s else (s.dropHolds fun _ h => l.contains h).judgeAgain l

/-- Held requests that `q` selects are judged again (R135, R148, R282). -/
def State.rejudge (s : State) (q : Held → Bool) : State :=
  let l := s.mem.held.flatMap fun e => e.2.filter fun h => q h && !h.parked
  ((s.dropHolds fun _ h => q h && !h.parked).judgeAgain l).readmit

/-- R12: refusals of one event in the order of their requesters: this module's units before remote ones, then by module, then by
unit. -/
def Held.before (a b : Held) : Bool :=
  let key (h : Held) : Nat := (if h.req.remote then 2 ^ 30 + h.req.srcId * 2 ^ 8 else 0) + h.req.unit % 256
  decide (key a ≤ key b)

/-- Held requests that `q` selects are refused with EPOCH_STALE (R136, R148, Table 06-27). -/
def State.expire (s : State) (q : Nat → Held → Bool) : State :=
  let l := sortBy Held.before (s.mem.held.flatMap fun e => e.2.filter (q e.1))
  (l.foldl (fun u h =>
    let idx := (u.hit [h.part] h.req.addr h.req.len).map (·.idx)
    let r := u.memRefuse h.req (some h.part) idx Err.epochStale
    r.2.settle h.req r.1) (s.dropHolds q)).readmit

/-- The answer of a memory row. -/
def memAnswer (r : Req) (x : MemRes × State) : Step :=
  let t := x.2.settle r x.1
  match x.1 with
  | .ok bs => done (.ok bs) t
  | .held => done .held t
  | .full => done .full t
  | .refused c => done (.refused c) t

/-- A read that a mover makes for its descriptor. -/
def State.moveRead (s : State) (x : Move) (ecc : Ecc) (evictBad : Option Nat) : Step :=
  match s.activeOf x.c x.m x.seq with
  | none => idle s
  | some a =>
    match a.stopped, a.readAt x.what, a.readSpan x with
    | false, none, some (ad, n) =>
      let r := s.moveReq x a .read ad n [] ecc evictBad
      memAnswer r (s.memReq r)
    | _, _, _ => idle s

/-- A write or an ACCUMULATE that a mover makes to this module's memory. What is not accepted is made again. -/
def State.moveWrite (s : State) (x : Move) (acc : Bool) (ecc : Ecc) (evictBad : Option Nat) : Step :=
  match s.activeOf x.c x.m x.seq with
  | none => idle s
  | some a =>
    if a.d.dstRemote ∨ (a.d.op == .accumulate) ≠ acc then idle s
    else match a.put x with
      | none => idle s
      | some p =>
        let r := s.moveReq x a (if acc then .acc else .write) p.addr p.data.length p.data ecc evictBad
        let q := s.memReq r
        if q.1 = .full then done .full s
        else
          let t := (q.2.modActive x.c x.m x.seq fun b => { b with covered := b.covered ++ [p.cover] }).modMover x.c x.m
            fun y => { y with cvt := y.cvt.or p.flags }
          memAnswer r (q.1, t)

/-- R109: a descriptor is done with memory: all is written, nothing is held or unacknowledged. -/
def State.descDone (s : State) (c m : Nat) (a : Active) : Bool :=
  a.complete && s.outstanding (.mover c m a.seq) == 0
    && s.mem.held.all fun e => e.2.all fun h => match h.req.origin with
      | .desc c' m' q _ _ => !(c' == c && m' == m && q == a.seq)
      | _ => true

end Sys2Proof.Machine
end

