-- ==== Sys2Proof/Machine/CommitOps.lean ====
section
/-! DEFINITION. The apply pass, the event of COMMIT, schedule records and snapshot epochs, what completes a squash (R16, R43,
R134, R148, R149, R273, R274, R277, R278, R287). -/

namespace Sys2Proof.Machine

/-- The order key of two deferred records (R147): sequence numbers by serial-number arithmetic within 2^31. -/
def DeferRec.before (a b : DeferRec) : Bool :=
  if a.srcId ≠ b.srcId then decide (a.srcId ≤ b.srcId)
  else if a.unit ≠ b.unit then decide (a.unit ≤ b.unit)
  else if a.seq ≠ b.seq then decide ((b.seq + 2 ^ 32 - a.seq % 2 ^ 32) % 2 ^ 32 < 2 ^ 31)
  else decide (a.addr ≤ b.addr)

/-- R148: the records of epoch `e` that are not applied, in the order of the pass. -/
def PMem.passOrder (x : PMem) (e : Word) : List DeferRec :=
  let l := x.deferLog.filter fun r => r.epoch == e && !r.applied
  (l.filter fun r => !r.det) ++ sortBy DeferRec.before (l.filter fun r => r.det)

/-- A record marked applied. -/
def State.markApplied (s : State) (p : Nat) (r : DeferRec) : State :=
  s.modPart p fun x => { x with mem := { x.mem with
    deferLog := x.mem.deferLog.map fun q => if q = r then { q with applied := true } else q } }

/-- UNIT code of the adder that serves an address. -/
def State.adderUnit (s : State) (a : Nat) : Nat :=
  let k := s.adderAt a
  if k < 8 then 0x80 + k else unitDispatch

/-- The records that the running pass of a partition has still to apply. -/
def Part.toApply (x : Part) : List DeferRec :=
  match x.commit with
  | some cm => x.mem.passOrder cm.epoch
  | none => []

/-- MC_ADDER_STATUS.APPLYING: the slice or controller has records of a running pass to apply (Table 06-16). -/
def State.reapply (s : State) : State :=
  let on := (List.range 8).flatMap fun p => (s.part p).toApply.map fun r => s.adderAt r.phys
  (List.range 16).foldl (fun t i => if (t.mc i).applying = on.contains i then t
    else t.modMc i fun m => { m with applying := on.contains i }) s

/-- The pass of a partition is over before its event: the requests that it held are refused with EPOCH_STALE (R148, Table 06-27). -/
def State.passEnds (s : State) (p : Nat) : State :=
  if (s.part p).commit.isNone then s
  else (s.modPart p fun y => { y with commit := none }).reapply.expire fun _ h => h.part == p && h.pass

/-- R118, R149: a squash of `e` takes a pass of `e` back: what it had applied is undone, its records wait again, and the requests that
it held are judged (log entry 101). -/
def State.passUndo (s : State) (p : Nat) (e : Word) : State :=
  match (s.part p).commit with
  | none => s
  | some cm =>
    if cm.epoch ≠ e then s
    else
      let t := cm.undo.foldl (fun u x => (pieces 128 x.1 x.2.length).foldl (fun v q =>
        v.replace q.1 ((x.2.drop (q.1 - x.1)).take q.2)) u) s
      let u := t.modPart p fun y => { y with
        commit := none
        mem := { y.mem with deferLog := y.mem.deferLog.map fun r => if r.epoch = e then { r with applied := false } else r } }
      u.reapply.rejudge fun h => h.part == p && h.pass

/-- A record of a pass whose destination is about to change: what stands there is kept. -/
def State.keepOld (s : State) (p : Nat) (r : DeferRec) : State :=
  s.modPart p fun x => { x with commit := x.commit.map fun c => { c with undo := (r.phys, s.mem.peek r.phys r.data.length) :: c.undo } }

/-- R148: the pass stops at a record whose destination meets an uncorrectable error, in the units of the bytes `found`. -/
def State.passFails (s : State) (p : Nat) (r : DeferRec) (found : List Nat) : State :=
  let t := found.foldl (fun u a => (u.foundBad a).countEcc (u.adderAt a) (.uncorrectable 0)) s
  let u := t.memLog (some p)
    { code := Err.uncorrectable, unit := s.adderUnit r.phys, part := some p, addr := some r.phys, prov := r.prov }
    (srcWord s.fab.id (s.adderUnit r.phys) 2 false r.prov 0 none)
  (u.passEnds p).askHalt p Err.uncorrectable

/-- R148: the records of a pass applied one after the other; `bad` are bytes whose units are found uncorrectable. -/
def State.passRun (p : Nat) (bad : List Nat) : List DeferRec → State → State × Bool
  | [], s => (s, true)
  | r :: l, s =>
    let n := r.data.length
    let u := poisonUnit r.phys
    let found := bad.filter fun a => (pieces u r.phys n).any fun e => e.1 / u == a / u
    if !found.isEmpty || s.mem.poisoned r.phys n then (s.passFails p r found, false)
    else State.passRun p bad l ((((s.keepOld p r).applyAdd r.ty r.op r.phys r.data).countBytes r.phys n true).markApplied p r)

/-- R134: SIDE toggles in every PAIRED entry. -/
def PMem.toggle (x : PMem) : PMem :=
  { x with regions := x.regions.mapVals fun _ g => if g.valid && g.paired then { g with side := !g.side } else g }

/-- The place of a stream's current command: lists ended, position. -/
def Stream.place (x : Stream) : Nat × Nat :=
  (x.past.length, match x.lists with
    | l :: _ => if x.started then x.pos else l.start
    | [] => x.pos)

/-- One place comes before another. -/
def placeBefore (a b : Nat × Nat) : Bool := decide (a.1 < b.1) || (a.1 == b.1 && decide (a.2 < b.2))

/-- R274: the position of a stream in the schedule record of `e`: its first command with a tag above `e`, else the next one to be
fetched; 0 when it is idle. -/
def Stream.posAt (x : Stream) (e : Word) : Nat :=
  if x.lists.isEmpty then 0
  else match x.marks.find? fun m => decide (e.toNat < m.1.toNat) with
    | some m => m.2.2
    | none => x.place.2

/-- R118: commands tagged `e` or lower are committed: their places are forgotten, and the ended lists before the first place left. -/
def Stream.settled (x : Stream) (e : Word) : Stream :=
  let ms := x.marks.filter fun m => decide (e.toNat < m.1.toNat)
  let k := match ms with
    | m :: _ => m.2.1
    | [] => x.past.length
  { x with past := x.past.drop k, marks := ms.map fun m => (m.1, m.2.1 - k, m.2.2), reached := (x.reached.1 - k, x.reached.2)
           redo := x.redo.filter fun t => decide (e.toNat < t.toNat) }

/-- R274: the draw state of a converting unit in the schedule record of `e`. -/
def drawAt (save : Option DrawSave) (d : Draw) (e : Word) : Draw :=
  match save with
  | some x => if x.tag = e + 1 then { step := x.step, count := x.count } else d
  | none => d

/-- R274: the draw states of the cores of a partition, three a core. -/
def State.drawsAt (s : State) (p : Nat) (e : Word) : Tab Draw :=
  (s.part p).cores.foldl (fun t c =>
    let k := s.core c
    let m (i : Nat) : Mover := k.mv.get {} i
    let u := 3 * (c - (s.part p).first)
    ((t.set {} u (drawAt k.ve.save k.ve.draw e)).set {} (u + 1) (drawAt (m 0).save (m 0).draw e)).set {} (u + 2)
      (drawAt (m 1).save (m 1).draw e)) []

/-- R274: the schedule record of `e`, as the partition stands. -/
def State.schedRec (s : State) (p : Nat) (e : Word) : SchedRec where
  epoch := e
  planId := s.rake.planId
  selfId := s.fab.id
  streams := ((s.part p).streams.map fun x => (x.1, x.2.posAt e)).filter fun x => x.2 != 0
  draws := s.drawsAt p e
  phases := (s.part p).phases
  groups := ((List.range 256).filter fun g => (s.sync.groups.get {} g).valid && (s.sync.groups.get {} g).part == p).map fun g =>
    (g, s.sync.counters.filter fun c => c.1 / 256 == g)

/-- R277: a snapshot epoch. -/
def Snap.isEpoch (x : Snap) (e : Word) : Bool :=
  x.enable && decide (x.anchor.toNat ≤ e.toNat) && (e.toNat - x.anchor.toNat) % max x.steps 1 == 0

/-- R286: the next snapshot is a base. One is also due where no job-complete base exists (log entry 40). -/
def Snap.baseDue (x : Snap) : Bool := x.needBase || decide (max x.baseK 1 ≤ x.sinceBase) || x.base == 3

/-- The lowest local slot that holds neither the last snapshot nor the last base. -/
def Snap.freeSlot (x : Snap) : Nat :=
  ((List.range 3).find? fun i => i != x.latest && i != x.base).getD 0

/-- R278: the drain that holds `e` begins, or is skipped where the previous one has no verdict yet. -/
def State.drainBegin (s : State) (p : Nat) (e : Word) : State :=
  let x := (s.part p).snap
  if !x.isEpoch e then s
  else if x.drain.isSome ∨ x.agree.isSome then
    (s.snapEvent p Err.drainLate).modSnap p fun y => { y with skips := y.skips ++ [e] }
  else
    let k := x.freeSlot
    s.modSnap p fun y => { y with
      drain := some { epoch := e, slot := k, base := y.baseDue }, drainDone := 0, drainRan := true
      slots := y.slots.set {} k { epoch := e, state := 1, base := y.baseDue } }

/-- Sum of a list. -/
def sumOf (l : List Nat) : Nat := l.foldl (· + ·) 0

/-- Integer mean; 0 of nothing. -/
def meanOf (l : List Nat) : Nat := if l.isEmpty then 0 else sumOf l / l.length

/-- Clamped to a range; a top below the bottom is taken as the bottom. -/
def clampTo (lo hi v : Nat) : Nat := max lo (min (max lo hi) v)

/-- Nanoseconds of an hour. -/
def nsHour : Nat := 3600000000000

/-- R287: the cost C of a drain, ns. -/
def Snap.costOf (x : Snap) (ps : List (Nat × Bool)) : Nat :=
  let a := meanOf (((ps.filter (·.2)).take 4).map (·.1))
  let b := meanOf (((ps.filter fun q => !q.2).take 16).map (·.1))
  clampTo (x.cMin * 1000000) (x.cMax * 1000000) (a - b)

/-- R287: the mean time M between failures, ns. -/
def Snap.mtbfOf (x : Snap) (now : Nat) : Nat :=
  let l := x.failTimes.take (max x.window 1)
  let m := match l.getLast? with
    | some o => (now - o.toNat) / l.length
    | none => x.mPrior * nsHour
  clampTo (x.mMin * nsHour) (x.mMax * nsHour) m

/-- R287: the proposal: √(2CM) ÷ T to the nearest, clamped. -/
def Snap.proposalOf (x : Snap) (c m t : Nat) : Nat :=
  clampTo (max x.intMin 1) x.intMax (if t = 0 then 0 else (Nat.sqrt (8 * c * m) + t) / (2 * t))

/-- Periods kept: 16 of each kind, newest first. -/
def trimPeriods (ps : List (Nat × Bool)) : List (Nat × Bool) :=
  (ps.foldl (fun (acc : List (Nat × Bool)) q =>
    if (acc.filter fun r => r.2 == q.2).length < 16 then acc ++ [q] else acc) [])

/-- R287: the measurements at a COMMIT. -/
def Snap.measure (x : Snap) (ft : Word) : Snap :=
  let ps := match x.lastCommit with
    | some t => trimPeriods ((ft.toNat - t.toNat, x.drainRan) :: x.periods)
    | none => x.periods
  let c := x.costOf ps
  let m := x.mtbfOf ft.toNat
  { x with
    periods := ps, lastCommit := some ft, drainRan := false, cost := BitVec.ofNat 64 c, mtbf := BitVec.ofNat 64 m
    proposal := x.proposalOf c m (meanOf ((ps.take 16).map (·.1))) }

/-- R118: the place is one that the stream had passed before the squash: what completes there is counted already. -/
def Stream.again (x : Stream) : Bool := x.redo.isSome && placeBefore x.place x.reached

/-- R311: the position of a stream moves past its current command; with the list whose SUBMIT ends by that. -/
def Stream.passOne (x : Stream) : Stream × Option SubList :=
  match x.lists with
  | [] => (x, none)
  | l :: rest =>
    let m := if x.again then l else { l with executed := l.executed + 1 }
    let fin := decide (l.fin ≤ x.pos + 64)
    let y : Stream := { x with
      pos := x.pos + 64, wait := none, fired := false, toQueue := none
      lists := if fin then rest else m :: rest, started := !fin, hasPos := !(fin && rest.isEmpty)
      past := if fin && !x.marks.isEmpty then x.past ++ [{ m with again := true }] else x.past }
    ({ y with redo := if y.lists.isEmpty || !placeBefore y.place y.reached then none else y.redo },
      if fin && !l.again then some m else none)

/-- R311: a command of a stream completes: the position moves past it; a list that is done ends its SUBMIT. -/
def State.advance (s : State) (p k : Nat) : State :=
  let r := (s.stream p k).passOne
  let t := s.modStream p k fun _ => r.1
  match r.2 with
  | some l => t.endList l 0 0
  | none => t

/-- R16, R273: the one indivisible event of COMMIT of epoch `e`, with what follows from it. -/
def State.commitEvent (s : State) (p : Nat) (cm : Commit) : State :=
  let e := cm.epoch
  let t := s.modPart p fun x => { x with
    mem := { x.mem.toggle with deferLog := x.mem.deferLog.filter fun r => r.epoch != e }
    epoch := e, attempt := 0, commit := none, normSave := none }
  let ts := { t with sync := (t.sync.commit p).committedWatches fun w => w.epoch == some e && s.armedFor p w }
  let t1 := ({ ts with parts := ts.parts.mod {} p fun x => { x with
    streams := x.streams.mapVals fun _ y => y.settled e } } : State).reapply.syncTest (inEpochGroup s.sync p)
  let t2 := t1.advance p cm.stream
  let r := t2.schedRec p e
  let t3 := t2.modSnap p fun x => { (x.measure t2.sync.ft) with records := (r :: x.records).take 2 }
  let t4 := t3.drainBegin p (e - 1)
  t4.rejudge fun h => h.part == p

/-- R118: every request tagged `e` of the partition has its answer: nothing is on its way or held for its movers. -/
def State.squashQuiet (s : State) (p : Nat) : Bool :=
  let mine (c : Nat) : Bool := (s.part p).holds c
  let sent (w : TxOrigin) : Bool := match w with
    | .mover c _ _ => mine c
    | .rake q _ _ => q == p
    | _ => false
  (s.fab.tx.all fun t => (t.out.all fun o => !(o.pkt.prov && sent o.who))
      && t.waiting.all fun w => !(w.1.prov && sent w.2))
    && (s.fab.parked.all fun r => !(r.2.1.prov && sent r.2.2)) && (s.fab.reads.all fun o => !(o.pkt.prov && sent o.who))
    && s.mem.held.all fun e => e.2.all fun h => match h.req.origin with
      | .desc c _ _ _ _ => !(h.req.prov && mine c)
      | _ => true

/-- R118: a stream rewound to its first command tagged `e`; from there on only commands with that tag run again, up to where
it had come. -/
def Stream.rewind (x : Stream) (e : Word) : Stream :=
  match x.marks.find? fun m => m.1 == e with
  | some m => { x with
      lists := x.past.drop m.2.1 ++ x.lists, past := x.past.take m.2.1, started := true, hasPos := true, pos := m.2.2
      redo := some e, reached := if x.again then x.reached else x.place, wait := none, fired := false, toQueue := none }
  | none => x

/-- R118, R149, R266: a squash of `e` is complete. -/
def State.squashDone (s : State) (p : Nat) (e : Word) : State :=
  let t := { s with sync := s.sync.restoreProv p }.syncTest (inEpochGroup s.sync p)
  let t1 := (s.part p).cores.foldl (fun u c => u.modCore c fun k => { k with
    squashHold := false, run := if k.squashHold ∧ k.run = .held then .idle else k.run
    mv := k.mv.mapVals fun _ m => { m with active := m.active.filter fun a => !(a.stopped && a.tag == e) } }) t
  t1.modPart p fun x => { x with
    squash := none
    mem := { x.mem with deferLog := x.mem.deferLog.filter fun r => !(r.prov && r.epoch == e) }
    streams := x.streams.mapVals fun _ y => y.rewind e
    norms := x.normSave.getD x.norms, normSave := none }

end Sys2Proof.Machine
end

