-- ==== Sys2Proof/Machine/RegionOps.lean ====
section
/-! DEFINITION. Region tables and pan splits as the dispatch processor writes them, the throttle level of a controller, the
thermal causes (R131, R132, R134, R139, R141, R151, R333, R334, R394). -/

namespace Sys2Proof.Machine

/-- Address of the partition block of memory registers (R156). -/
def pmemBase (p : Nat) : Nat := cfgBase + 0x1040000 + p * 0x4000

/-- Address of the block of a slice or controller. -/
def mcBase (i : Nat) : Nat :=
  cfgBase + if i < 8 then 0x1000000 + i * 0x1000 else if i < 14 then 0x1010000 + (i - 8) * 0x1000
    else 0x1020000 + (i - 14) * 0x1000

/-- A register write of a memory block refused (R138, R156). -/
def State.memRegRefuse (s : State) (w : Who) (p : Option Nat) (addr : Nat) (c : Code) : State :=
  s.memLog p
    { code := c, unit := w.unit, srcId := if w.remote then some w.srcId else none, part := p, addr := some addr,
      remote := w.remote }
    (srcWord (if w.remote then w.srcId else s.fab.id) w.unit 1 w.remote false 0 none)

/-- The dispatch processor of this module. -/
def Who.isDispatch (w : Who) : Bool := !w.remote && w.unit == unitDispatch

/-- The physical function through BAR2, or the dispatch processor. -/
def Who.isHost (w : Who) : Bool := !w.remote && (w.unit == unitDispatch || w.unit == unitHost)

/-- A region entry from its words (Table 06-4). -/
def regionOf (w0 w1 w2 : Nat) : Region where
  base := bits w0 47 0
  limit := bits w1 47 0
  valid := bit w2 0
  r := bit w2 1
  w := bit w2 2
  a := bit w2 3
  remR := bit w2 4
  remW := bit w2 5
  remA := bit w2 6
  hostR := bit w2 7
  hostW := bit w2 8
  guard := bits w2 10 9
  paired := bit w2 11
  cache := bit w2 13
  det := bit w2 14

/-- A non-zero RSVD field of an entry. -/
def regionRsvd (w0 w1 w2 w3 : Nat) : Bool := w0 / 2 ^ 48 != 0 || w1 / 2 ^ 48 != 0 || w2 / 2 ^ 15 != 0 || w3 != 0

/-- R132: the pan granules of a range are scratch of the partition. -/
def PMem.scratchOk (x : PMem) (g : Region) : Bool :=
  (pieces 0x1000000 (g.base - 0x000100000000) (g.limit + 1 - g.base)).all fun e =>
    let q := e.1 / 0x1000000
    let sp := x.panSplit.get {} (q / 24)
    decide (sp.base ≤ q % 24) && decide (q % 24 < sp.base + sp.scratch)

/-- R132: a VALID entry `i` of partition `p` is one that the dispatch processor writes. -/
def State.regionOk (s : State) (p i : Nat) (g : Region) : Bool :=
  let x := (s.part p).mem
  let z := zoneAt g.base
  let tier := z == .hbm || z == .lpddr
  let placed := match z with
    | .ls _ | .pan | .hbm | .lpddr => true
    | _ => false
  g.base % 4096 == 0 && g.limit % 4096 == 4095 && decide (g.base < g.limit) && placed && zoneAt g.limit == z
    && ((List.range 8).all fun q => (s.part q).mem.regions.all fun e =>
      (q == p && e.1 == i) || !e.2.valid || decide (e.2.limit < g.base) || decide (g.limit < e.2.base))
    && (z != .pan || x.scratchOk g) && (!g.cache || (tier && !x.cacheSlices.isEmpty))
    && (!g.paired || (g.limit + 1 - g.base) % 8192 == 0) && (g.guard != 2 || g.paired) && g.guard != 3

/-- R134: an entry keeps the SIDE of the one that it replaces where both are valid and PAIRED, with the same BASE and LIMIT. -/
def Region.over (g old : Region) : Region :=
  { g with side := g.valid && g.paired && old.valid && old.paired && g.base == old.base && g.limit == old.limit && old.side }

/-- R131 to R134, R141: an entry written by the dispatch processor. -/
def State.regionPut (s : State) (p i : Nat) (w0 w1 w2 w3 : Nat) : Except Code State :=
  let g := regionOf w0 w1 w2
  let old := (s.part p).mem.regions.get {} i
  if regionRsvd w0 w1 w2 w3 ∨ (g.valid ∧ !s.regionOk p i g) then .error Err.regionLoad
  else
    let t := if old.valid && old.cache then s.flushRange old.base (old.limit + 1) else s
    .ok (t.modPart p fun x => { x with mem := { x.mem with
      regions := x.mem.regions.set {} i (g.over old) } })

/-- PAN_SPLITs (Table 06-24). -/
def panSplitOf (v : Nat) : PanSplit := { base := bits v 4 0, scratch := bits v 9 5, cache := bits v 14 10 }

/-- Granules of a split. -/
def PanSplit.size (x : PanSplit) : Nat := x.scratch + x.cache

/-- The partition has a command stream with work outstanding. -/
def Part.busy (x : Part) : Bool := x.streams.any fun e => !e.2.lists.isEmpty

/-- R139: a split that the dispatch processor takes. -/
def State.splitOk (s : State) (p slice : Nat) (n : PanSplit) : Bool :=
  (n.size == 0 || decide (n.base + n.size ≤ 24))
    && ((List.range 8).all fun q =>
      let o := (s.part q).mem.panSplit.get {} slice
      q == p || n.size == 0 || o.size == 0 || decide (n.base + n.size ≤ o.base) || decide (o.base + o.size ≤ n.base))
    && !(s.part p).busy

/-- R139: a split written. The partition's cached lines are written back and dropped before their places change (log entry
41). -/
def State.splitPut (s : State) (p slice v : Nat) : Except Code State :=
  let n := panSplitOf v
  if s.splitOk p slice n then
    .ok ((s.flushPart p true).modPart p fun x => { x with mem := { x.mem with
      panSplit := x.mem.panSplit.set {} slice n } })
  else .error Err.regionLoad

/-- R394: a deferral log of partition `p` is accepted. -/
def State.deferOk (s : State) (p base size : Nat) : Bool :=
  base % 4096 == 0 && size % 4096 == 0 &&
    (size == 0 || (decide (0x010000000000 ≤ base) && decide (base + size ≤ 0x014800000000)
      && (List.range 8).all fun q =>
        let x := (s.part q).mem
        q == p || x.deferSize == 0 || decide (base + size ≤ x.deferBase) || decide (x.deferBase + x.deferSize ≤ base)))

/-- R151: MC_THRESH clamped to its ranges. -/
def threshClamp (t1 t2 : Nat) : Nat × Nat :=
  let a := max 85 (min 100 t1)
  (a, max (a + 5) (min 110 t2))

/-- R151, Table 06-9: the throttle level after a reading. -/
def Mc.read (m : Mc) (temp : Int) (now : Nat) : Mc :=
  let trig (l : Nat) : Int := if l = 1 then (m.t1 : Int) else (m.t2 : Int)
  let up := if trig 2 ≤ temp then 2 else if trig 1 ≤ temp then 1 else 0
  if m.throttle < up then { m with temp := temp, throttle := up, coolSince := none }
  else if 0 < m.throttle ∧ temp ≤ trig m.throttle - 3 then
    let t0 := m.coolSince.getD now
    if t0 + 1000000 ≤ now then { m with temp := temp, throttle := m.throttle - 1, coolSince := none }
    else { m with temp := temp, coolSince := some t0 }
  else { m with temp := temp, coolSince := none }

/-- A power or thermal code recorded in PWR_ERR_CODE and logged with the register concerned (R338). Unit 0x64 is the power
controller (Table 15-3). -/
def State.pwrLog (s : State) (c : Code) (off : Nat) (unit : Nat := 0x64) (detail : Nat := 0) : State :=
  { s with pwr := { s.pwr with err := true, errCode := first s.pwr.err s.pwr.errCode c } }.log
    { code := c, unit := unit, addr := some (cfgBase + 0x1500000 + off), detail := detail }

/-- R334, R366: MEMORY_HOT and the THERMAL cause, from the warning and the throttle levels. -/
def State.thermal (s : State) : State :=
  let lv (n : Nat) : Bool := (List.range 16).any fun i => decide (n ≤ (s.mc i).throttle)
  { s with pwr := { s.pwr with memoryHot := lv 1 }, mgmt := { s.mgmt with thermal := s.pwr.warn || lv 2 } }

/-- R151, Table 06-9: controller `i` as a reading or new triggers leave it; MEMORY_HOT where it leaves level 0. -/
def State.mcLevel (s : State) (i : Nat) (n : Mc) : State :=
  let t := (s.modMc i fun _ => n).thermal
  if (s.mc i).throttle = 0 ∧ n.throttle ≠ 0 then t.pwrLog 0x0B07 0x24 else t

/-- R151: new triggers, by which the last reading is judged again. -/
def State.threshSet (s : State) (i : Nat) (q : Nat × Nat) : State :=
  s.mcLevel i ({ s.mc i with t1 := q.1, t2 := q.2 }.read (s.mc i).temp s.now)

end Sys2Proof.Machine
end

