-- ==== Sys2Proof/Machine/MemCmds.lean ====
section
/-! DEFINITION. Commands of the memory tiers, of commit and of squash (chapters 05, 06 and 11). -/

namespace Sys2Proof.Machine

/-- DESCRIPTOR_COMPLETE: INC is added, or refused, which stops the descriptor; then it leaves the mover, and RINC is added (R109,
R138, R169). -/
def State.descComplete (s : State) (c m : Nat) (a : Active) : Step :=
  let prov := s.moveProv c a
  let who : SWho := { unit := 2 * c + m, part := s.partOfCore c, prov := prov.isSome, epochLo := epochLoOf prov }
  let r := if a.d.inc = 0 then (none, s) else s.counterAdd who a.d.counter (BitVec.ofNat 64 a.d.inc)
  match r with
  | (some code, u) => done (.refused code) (u.moverRefused c m a.seq code)
  | (none, u) =>
    let t := u.modMover c m fun x => { x with
      active := x.active.filter fun b => b.seq != a.seq, done := x.done + 1
      signals := if a.d.rcEn then x.signals ++ [a.seq] else x.signals }
    served (if a.d.rcEn then
        t.request (syncAddPkt t.fab.id a.d.dstId a.d.rcounter a.d.rinc 0xFFFF 1 t.sync.ft prov.isSome (a.tag.toNat % 4))
          (.mover c m a.seq)
      else t)

/-- DESCRIPTOR_COMPLETE (R109). -/
def execDescriptorComplete (c m seq : Nat) (s : State) : Step :=
  guarded (decide (c < 32 ∧ m < 2)) s <|
    match s.activeOf c m seq with
    | none => idle s
    | some a => guarded (s.descDone c m a) s (s.descComplete c m a)

/-- APPLY_PASS (R148). -/
def execApplyPass (p : Nat) (bad : List Nat) (s : State) : Step :=
  guarded (decide (p < 8)) s <|
    match (s.part p).commit with
    | none => idle s
    | some cm =>
      guarded ((s.part p).squash != some cm.epoch) s <|
        let r := State.passRun p bad ((s.part p).mem.passOrder cm.epoch) s
        if r.2 then served (r.1.modPart p fun x => { x with commit := x.commit.map fun y => { y with applied := true } }).reapply
        else done (.refused Err.uncorrectable) r.1

/-- COMMIT_EVENT (R16, R273). -/
def execCommitEvent (p : Nat) (s : State) : Step :=
  guarded (decide (p < 8)) s <|
    match (s.part p).commit with
    | none => idle s
    | some cm =>
      guarded (cm.applied && (s.part p).toApply.isEmpty && (s.part p).squash != some cm.epoch) s (served (s.commitEvent p cm))

/-- HELD_REQUEST_EXPIRY: request `i` of a target has waited 10 ms (R136). -/
def execHeldRequestExpiry (target i : Nat) (s : State) : Step :=
  match (s.heldAt target)[i]? with
  | none => idle s
  | some h =>
    guarded (h.timed && decide (h.since + 10000000 ≤ s.now)) s
      (done (.refused Err.epochStale) (s.expire fun k g => k == target && g == h))

/-- R156: a write of a memory register by requester `w`. -/
def State.memWriteBy (s : State) (w : Who) (p : Option Nat) (addr : Nat) (x : Except Code State) : Step :=
  if !w.isDispatch then done (.refused Err.permission) (s.memRegRefuse w p addr Err.permission)
  else match x with
    | .error c => done (.refused c) (s.memRegRefuse w p addr c)
    | .ok t => served t

/-- PAN_FLUSH (R143, R156). -/
def State.panFlush (s : State) (p : Nat) (drop : Bool) : State :=
  (s.flushPart p drop).modPart p fun x => { x with mem := { x.mem with flushBusy := true } }

def execPanFlush (w : Who) (p : Nat) (s : State) : Step :=
  guarded (decide (p < 8)) s (s.memWriteBy w (some p) (pmemBase p + 0x30) (.ok (s.panFlush p false)))

/-- PAN_FLUSH with DROP (R143). -/
def execPanFlushDrop (w : Who) (p : Nat) (s : State) : Step :=
  guarded (decide (p < 8)) s (s.memWriteBy w (some p) (pmemBase p + 0x30) (.ok (s.panFlush p true)))

/-- PAN_FLUSH_DONE (R143). -/
def execPanFlushDone (p : Nat) (s : State) : Step :=
  guarded (decide (p < 8) && (s.part p).mem.flushBusy) s
    (served (s.modPart p fun x => { x with mem := { x.mem with flushBusy := false } }))

/-- PAN_SPLIT_WRITE (R139, R156). -/
def execPanSplitWrite (w : Who) (p slice : Nat) (v : BitVec 32) (s : State) : Step :=
  guarded (decide (p < 8 ∧ slice < 8)) s
    (s.memWriteBy w (some p) (pmemBase p + 0x40 + 4 * slice) (s.splitPut p slice v.toNat))

/-- REGION_WRITE (R131, R132). -/
def execRegionWrite (w : Who) (p i : Nat) (w0 w1 w2 w3 : Word) (s : State) : Step :=
  guarded (decide (p < 8 ∧ i < 256)) s
    (s.memWriteBy w (some p) (pmemBase p + 0x1000 + 32 * i) (s.regionPut p i w0.toNat w1.toNat w2.toNat w3.toNat))

/-- R151: MC_THRESH written: values outside their ranges are clamped, and answered with PERMISSION; the level is judged by the new
triggers. RSVD in a slice's block. -/
def State.threshPut (s : State) (w : Who) (mc v : Nat) : Step :=
  let t1 := v % 256
  let t2 := v / 256 % 256
  let q := threshClamp t1 t2
  if mc < 8 then served s
  else
    let t := s.threshSet mc q
    if q = (t1, t2) then served t
    else done (.refused Err.permission) (t.memRegRefuse w none (mcBase mc + 8) Err.permission)

/-- MC_THRESH_WRITE (R151, R156). -/
def execMcThreshWrite (w : Who) (mc : Nat) (v : BitVec 32) (s : State) : Step :=
  guarded (decide (mc < 16)) s <|
    if w.isDispatch then s.threshPut w mc v.toNat
    else done (.refused Err.permission) (s.memRegRefuse w none (mcBase mc + 8) Err.permission)

/-- DEVICE_TEMP_READ: a controller reads its devices; a slice its sensor (R151, R334). -/
def execDeviceTempRead (mc : Nat) (temp : Int) (refresh device : Nat) (s : State) : Step :=
  guarded (decide (mc < 16 ∧ refresh < 3 ∧ device < 16) && (s.mc mc).online) s <|
    if mc < 8 then served (s.modMc mc fun m => { m with temp := temp })
    else
      served (s.mcLevel mc { (s.mc mc).read temp s.now with refresh := refresh, device := if 14 ≤ mc then device else 0 })

/-- A byte of what a slice or controller holds: of its own addresses, or of a line cached in the slice. -/
def State.holdsByte (s : State) (mc a : Nat) : Bool :=
  (targetOf a == mc && zoneAt a != .none) || match s.mem.cache.get none (a / 128) with
    | some l => decide (mc < 8) && (s.part l.part).mem.sliceOf a == mc
    | none => false

/-- SCRUB_PASS: part of a background correction pass (R154). `bad`: bytes whose units it finds uncorrectable. -/
def execScrubPass (mc corrected : Nat) (bad : List Nat) (fin : Bool) (s : State) : Step :=
  guarded (decide (mc < 16) && (s.mc mc).online) s <|
    let l := bad.filter fun a => s.holdsByte mc a
    let t := l.foldl (fun u a => if targetOf a = mc then { u with mem := u.mem.mark a } else u.foundBad a) s
    served (t.modMc mc fun m => { m with
      scrub := !fin, eccCorr := m.eccCorr + BitVec.ofNat 64 corrected, eccUncorr := m.eccUncorr + BitVec.ofNat 64 l.length })

/-- Contents of a target gone: zero, with no poison and no cached line of it. -/
def Mem.wipe (m : Mem) (k : Nat) : Mem :=
  let here (a : Nat) : Bool := targetOf a == k && zoneAt a != .none
  { m with
    bytes := m.bytes.filter fun e => !here e.1
    poison := m.poison.filter fun e => !here e.1
    cache := m.cache.filter fun e => !here (128 * e.1) }

/-- LPDDR6_ZERO_DONE: every line holds zero under the new keys (R153). -/
def execLpddr6ZeroDone (k : Nat) (s : State) : Step :=
  guarded (decide (k < 2) && (s.mc (14 + k)).training) s
    (served ({ s with mem := s.mem.wipe (14 + k) }.modMc (14 + k) fun m => { m with encReady := true }))

end Sys2Proof.Machine
end

