-- ==== Sys2Proof/Machine/CoreCmds.lean ====
section
/-! DEFINITION. Commands of the control core and of its timed machinery (chapter 05). -/

namespace Sys2Proof.Machine

/-- BUNDLE_ISSUE (R93, R94, R397). -/
def execBundleIssue (c : Nat) (s : State) : Step := guarded (decide (c < 32)) s (s.issue c none)

/-- CORE_WAKE: no cause of the hold is left; the next bundle issues (R92, R112). -/
def execCoreWake (c : Nat) (s : State) : Step :=
  let k := s.core c
  guarded (decide (c < 32) && k.run == .held && k.waiting.isNone && !k.dutyHold && k.block.isSome) s
    ((s.modCore c fun y => { y with run := .issuing }).issue c none)

/-- WAIT_LIMIT (R113). -/
def execWaitLimit (c : Nat) (s : State) : Step :=
  let k := s.core c
  match k.waiting with
  | none => idle s
  | some w =>
    guarded (decide (c < 32) && k.run == .held && k.waitLimit != 0
        && decide (1000 * k.waitLimit.toNat < s.now - w.since)) s <|
      let t := (s.modCore c fun y => { y with waiting := none }).cancelWatches fun i _ => i == 4064 + c
      done (.refused Err.waitLimit)
        (t.coreFaults c [{ code := Err.waitLimit, addr := w.bundle, slot := 0, prov := w.prov.bind (provTag (s.env c)), stream := w.stream }])

/-- LAUNCH_START (R15, R101, R102, R118). -/
def execLaunchStart (c : Nat) (s : State) : Step :=
  let k := s.core c
  match k.launches with
  | [] => idle s
  | l :: rest =>
    let part := s.partOfCore c
    let committed := (part.map fun p => (s.part p).epoch).getD 0
    let stopped := (part.map fun p => (s.part p).halted).getD true
    guarded (decide (c < 32) && k.block.isNone && (k.run == .idle || k.run == .held) && k.waiting.isNone && !k.dutyHold
        && !k.squashHold && l.copied && l.allowed committed && !stopped) s
      (served (s.startLaunch c l rest))

/-- LS_TOUCH: the touches that are due; `bad` lines are found uncorrectable (R104, R105, R154, R395). -/
def execLsTouch (c : Nat) (bad : List Nat) (s : State) : Step := s.eventOf c Ev.touches bad

/-- MV_ACCST_PAIR_READ (R111). -/
def execMvAccstPairRead (c : Nat) (s : State) : Step := s.eventOf c Ev.pairRead []

/-- STATIONARY_READY (R49). -/
def execStationaryReady (c : Nat) (s : State) : Step :=
  s.eventOf c (fun e => match e with
    | .statReady .. => true
    | _ => false) []

/-- ACC_ROW_WRITE (R49, R50). -/
def execAccRowWrite (c : Nat) (s : State) : Step :=
  s.eventOf c (fun e => match e with
    | .zeroRows .. | .landRow .. | .landStream .. => true
    | _ => false) []

/-- VE_RESULT_LAND (R73). -/
def execVeResultLand (c : Nat) (s : State) : Step :=
  s.eventOf c (fun e => match e with
    | .landV .. | .landP .. => true
    | _ => false) []

/-- SUMMARY_LAND (R82). -/
def execSummaryLand (c : Nat) (s : State) : Step :=
  s.eventOf c (fun e => match e with
    | .landS .. | .landSeen .. => true
    | _ => false) []

/-- TABLE_SWITCH (R84). -/
def execTableSwitch (c : Nat) (s : State) : Step :=
  s.eventOf c (fun e => match e with
    | .tableSwitch .. => true
    | _ => false) []

/-- R181: the watches of a partition's streams and cores. -/
def State.partWatch (s : State) (p : Nat) (slot : Nat) : Bool :=
  let sp := s.sync.splits.get {} p
  (decide (sp.first ≤ slot) && decide (slot < sp.first + sp.count))
    || (decide (4064 ≤ slot) && (s.part p).holds (slot - 4064))

/-- R120, R181, R298, R313: the cores of a partition stop, its watches go, its streams end with the code. -/
def State.haltPart (s : State) (p : Nat) (code : Code) (fault : Option Nat) : State :=
  let t := (s.part p).cores.foldl (fun u c => u.modCore c fun k => { k with run := .halted, waiting := none }) s
  let u := (t.cancelWatches fun i _ => s.partWatch p i).endStreams p code fault
  let v := (u.passEnds p).modPart p fun x => { x with halted := true, haltCode := code, haltReq := none, commit := none }
  v.setEvents 1 fun f y => f == 0 || y.bound == some p

/-- PARTITION_HALT (R120). -/
def execPartitionHalt (p : Nat) (s : State) : Step :=
  guarded (decide (p < 8)) s <|
    match (s.part p).haltReq with
    | none => idle s
    | some (code, k) => served (s.haltPart p code k)

end Sys2Proof.Machine
end

