-- ==== Sys2Proof/Machine/RakeOps.lean ====
section
/-! DEFINITION. The rake: its memory requests, the wire format, ring, tree, multicast, all-to-all and permute, deadlines and late
contributions, the fused norm, completion (R254 to R266). -/

namespace Sys2Proof.Machine

open Sys2Proof.Num

namespace Err
def planForm : Code := 0x0801
def planFeatures : Code := 0x0802
def planBusy : Code := 0x0803
def collForm : Code := 0x0804
def phaseOrder : Code := 0x0806
def hintForm : Code := 0x0807
end Err

/-- The name of a collective: partition, entry, instance. -/
structure CollKey where
  part : Nat
  entry : Nat
  inst : Nat
deriving DecidableEq, Repr

def Coll.key (x : Coll) : CollKey := { part := x.part, entry := x.rc.coll, inst := x.rc.inst }
def State.coll (s : State) (k : CollKey) : Option Coll := s.rake.active.find? fun x => x.key == k
def State.entry (s : State) (i : Nat) : CollEntry := s.rake.entries.get {} i
def State.modColl (s : State) (k : CollKey) (g : Coll → Coll) : State :=
  { s with rake := { s.rake with active := s.rake.active.map fun x => if x.key = k then g x else x } }

/-- A collective ends with its first refusing code (R259). -/
def State.collFail (s : State) (k : CollKey) (c : Code) : State :=
  s.modColl k fun x => if x.status = 0 then { x with status := c } else x

/-- The collective runs provisionally (R102, R266). -/
def State.collProv (s : State) (x : Coll) : Bool := decide ((s.part x.part).epoch.toNat < x.tag.toNat)

/-- A request of the rake for a collective. -/
def State.rakeReq (s : State) (x : Coll) (kind : Kind) (addr : Nat) (n : Nat) (data : List Byte) : Req where
  unit := 0x60
  kind := kind
  addr := addr
  len := n
  data := data
  prov := s.collProv x
  epochLo := if s.collProv x then x.tag.toNat % 4 else 0
  ty := Ty.fp32.code

/-- A write of the rake that finds the held queue full waits there all the same: the rake makes it again. -/
def State.parkReq (s : State) (r : Req) : State :=
  match s.hit (s.judges r) r.addr r.len with
  | none => s
  | some h =>
    let k := targetOf r.addr
    { s with mem := { s.mem with
      held := s.mem.held.set [] k (s.heldAt k ++ [{ req := r, since := s.now, timed := false, part := h.part, parked := true }]) } }

/-- Bytes read by the rake, a request a page. -/
def State.rakeRead (s : State) (x : Coll) (addr n : Nat) : MemRes × State :=
  (pieces 4096 addr n).foldl (fun (acc : MemRes × State) e =>
    match acc.1 with
    | .ok bs =>
      let r := acc.2.memReq (s.rakeReq x .read e.1 e.2 [])
      (match r.1 with
        | .ok cs => (.ok (bs ++ cs), r.2)
        | o => (o, r.2))
    | _ => acc) (.ok [], s)

/-- Bytes written by the rake; a refusal ends the collective with its code. -/
def State.rakeWrite (s : State) (k : CollKey) (addr : Nat) (data : List Byte) : State :=
  match s.coll k with
  | none => s
  | some x =>
    (pieces 4096 addr data.length).foldl (fun t e =>
      let r := t.memReq (s.rakeReq x .write e.1 e.2 ((data.drop (e.1 - addr)).take e.2))
      match r.1 with
      | .refused c => r.2.collFail k c
      | .full => t.parkReq (t.rakeReq x .write e.1 e.2 ((data.drop (e.1 - addr)).take e.2))
      | _ => r.2) s

/-- Elements put on the wire (R258): FP32, BF16, or FP8 blocks of 32 with their scales first. -/
def wireEnc (w : Nat) (vals : List Nat) : List Byte × Cvt :=
  match w with
  | 0 => (pack 32 vals, {})
  | 1 =>
    let rs := vals.map fun v => fmtBF16.convert Mode.ieee 0 (f32 v)
    (pack 16 (rs.map (·.1)), rs.foldl (fun f r => f.or r.2) {})
  | _ =>
    let n := (vals.length + 31) / 32
    let rs := (List.range n).map fun i =>
      convertBlockAuto .e4m3 Mode.ieee (((vals ++ List.replicate 31 0).drop (32 * i)).take 32 |>.map fun v => (f32 v, 0))
    (rs.map (fun r => BitVec.ofNat 8 r.1) ++ pack 8 (rs.flatMap (·.2.1)), rs.foldl (fun f r => f.or r.2.2) {})

/-- Bytes of `n` elements on the wire. -/
def wireBytes (w n : Nat) : Nat :=
  match w with
  | 0 => 4 * n
  | 1 => 2 * n
  | _ => (n + 31) / 32 * 33

/-- Elements taken off the wire, widened exactly to FP32 (R256). -/
def wireDec (w n : Nat) (bs : List Byte) : List Nat :=
  match w with
  | 0 => unpack 32 bs n
  | 1 => (unpack 16 bs n).map fun c => toF32 (bf c)
  | _ =>
    let b := (n + 31) / 32
    (List.range n).map fun i =>
      toF32 (decodeScaled .e4m3 ((bs[b + i]?).getD 0).toNat ((bs[i / 32]?).getD 0).toNat)

/-- R39: widening met a NaN. -/
def widenCvt (vals : List Nat) : Cvt := { nanin := vals.any fun v => (f32 v).isNan }

/-- wire(a) of R256. -/
def wireRound (w : Nat) (vals : List Nat) : List Nat × Cvt :=
  let r := wireEnc w vals
  (wireDec w vals.length r.1, r.2)

/-- BYTES take part in no conversion: a gather moves them as they are (R18). -/
def CollEntry.raw (e : CollEntry) (r : CollRec) : Bool := (e.op == 1 || e.op == 3) && r.srcTy == Ty.bytes.code

/-- Elements of a packet: as many as 8,192 bytes hold, a multiple of 32 for FP8. -/
def CollEntry.chunk (e : CollEntry) (r : CollRec) : Nat :=
  if e.raw r then 8176
  else match e.wire with
    | 0 => 2044
    | 1 => 4088
    | _ => 7904

/-- Logical ID of a position. -/
def State.member (s : State) (e : CollEntry) (pos : Nat) : Nat := s.rake.members.get 0 (e.memberBase + pos)

/-- The head of COLL_DATA (Table 10-6). -/
def collHead (x : Coll) (e : CollEntry) (late : Bool) (n first step kind : Nat) : List Byte :=
  leBytes (x.rc.coll + x.attempt % 16 * 2 ^ 12) 2 ++ leBytes x.rc.inst 2 ++ leBytes (e.pos + late.toNat * 2 ^ 15) 2
    ++ leBytes n 2 ++ leBytes first 5 ++ [BitVec.ofNat 8 (e.wire + step % 16 * 4), BitVec.ofNat 8 kind, 0]

/-- A COLL_DATA packet to a module, or to the group of the entry (R258). -/
def State.collPkt (s : State) (k : CollKey) (to' : Option Nat) (kind step first n off : Nat) (late : Bool) (body : List Byte) :
    State :=
  match s.coll k with
  | none => s
  | some x =>
    let e := s.entry k.entry
    let scalar := e.op == 7
    let pay := collHead x e late n first step kind ++ body ++ if scalar then List.replicate (224 - body.length) 0 else []
    let p : Pkt := {
      dst := match to' with
        | some id => id
        | none => e.group
      src := s.fab.id, cls := if scalar then 0 else e.cls, ty := tyCollData, prov := s.collProv x
      epochLo := if s.collProv x then x.tag.toNat % 4 else 0
      len := pay.length, mcast := to'.isNone, offset := off, payload := pay }
    (s.modColl k fun y => { y with bytesTx := y.bytesTx + 16 + pay.length }).request p (.rake k.part k.entry k.inst)

/-- Ranges of `n` elements in chunks of `c`. -/
def chunksOf (c n : Nat) : List (Nat × Nat) :=
  if c = 0 then [] else (List.range ((n + c - 1) / c)).map fun i => (c * i, min c (n - c * i))

/-- R258: FP8 elements travel in whole blocks of 32; what fills the last block lies beyond the elements that the receiver expects. -/
def wireFill (w : Nat) (vs : List Nat) : List Nat := if w = 2 then vs ++ List.replicate ((32 - vs.length % 32) % 32) 0 else vs

/-- Elements sent from element index `first` on, to a position or to the group. -/
def State.collVals (s : State) (k : CollKey) (to' : Option Nat) (kind step first : Nat) (late : Bool) (vals : List Nat) :
    State :=
  match s.coll k with
  | none => s
  | some x =>
    let e := s.entry k.entry
    (chunksOf (e.chunk x.rc) vals.length).foldl (fun t c =>
      let vs := if e.raw x.rc then (vals.drop c.1).take c.2 else wireFill e.wire ((vals.drop c.1).take c.2)
      let enc := if e.raw x.rc then (pack 8 vs, ({} : Cvt)) else wireEnc e.wire vs
      (t.modColl k fun y => { y with cvt := y.cvt.or enc.2 }).collPkt k (to'.map (s.member e)) kind step (first + c.1) vs.length 0 late
        enc.1) s

/-- Norm accumulator after one value (R261). -/
def Norm.take (n : Norm) (v : Nat) : Norm :=
  match Num.f32 v with
  | .nan => { n with nan := true }
  | .inf _ => { n with inf := true }
  | .fin _ m e => { n with sum := n.sum + m * m * 2 ^ (2 * e + 298).toNat }

/-- R261: results of this module's own shard, in FP32. -/
def State.collNorm (s : State) (k : CollKey) (vals : List Nat) : State :=
  let e := s.entry k.entry
  if !e.normEn || ((s.coll k).any fun x => e.raw x.rc) then s
  else
    let bad := vals.any fun v => (f32 v).isNan || (f32 v).isInf
    (s.modPart k.part fun p => { p with norms := p.norms.mod {} e.normIdx fun n => vals.foldl Norm.take n }).modColl k fun y =>
      { y with nonfinite := y.nonfinite || bad }

/-- Elements from index `at'` of the destination written in DST_TYPE. -/
def State.collStore (s : State) (k : CollKey) (at' : Nat) (vals : List Nat) : State :=
  match s.coll k with
  | none => s
  | some x =>
    let t := (Ty.ofCode x.rc.dstTy).getD .bytes
    let rs : List (Nat × Cvt) := if (s.entry k.entry).raw x.rc then vals.map fun v => (v, {})
      else if t = .fp32 then vals.map fun v => (v, {})
      else vals.map fun v => convert t Mode.ieee 0 (f32 v)
    (s.modColl k fun y => { y with
      written := y.written + vals.length, cvt := rs.foldl (fun f r => f.or r.2) y.cvt }).rakeWrite k
        (x.rc.dst + t.bits * at' / 8) (pack t.bits (rs.map (·.1)))

/-- R256: wire(a) of a collective's values, with the flags met; BYTES stay as they are. -/
def State.collWire (s : State) (k : CollKey) (x : Coll) (vals : List Nat) : List Nat × State :=
  let e := s.entry k.entry
  if e.raw x.rc then (vals, s)
  else
    let w := wireRound e.wire vals
    (w.1, s.modColl k fun y => { y with cvt := y.cvt.or w.2 })

/-- Results from element index `first` on, final at this module (R256, R261). -/
def State.collResult (s : State) (k : CollKey) (first : Nat) (vals : List Nat) : State :=
  match s.coll k with
  | none => s
  | some x =>
    let e := s.entry k.entry
    let c := x.rc.count
    let own := (List.range vals.length).filterMap fun i =>
      if e.op = 0 ∨ (first + i) / max c 1 = e.pos then vals[i]? else none
    (s.collNorm k own).collStore k (if e.op = 0 then first - e.pos * c else first) vals

/-- Values added element by element, with the flags met. -/
def addVals (a b : List Nat) : List Nat × Cvt :=
  let rs := List.zipWith (fun x y => fmtFP32.convert Mode.ieee 0 ((f32 x).add (f32 y))) a b
  (rs.map (·.1), rs.foldl (fun f r => f.or r.2) {})

/-- R256: elements reduced, counted in RAKE_ELEMS. -/
def State.collAdd (s : State) (k : CollKey) (a b : List Nat) : List Nat × State :=
  let r := addVals a b
  (r.1, { s.modColl k (fun y => { y with cvt := y.cvt.or r.2 }) with
    rake := { (s.modColl k fun y => { y with cvt := y.cvt.or r.2 }).rake with
      elems := s.rake.elems + BitVec.ofNat 64 (min a.length b.length) } })

/-- R256: elements of a shard that the forward direction of a ring carries. -/
def CollEntry.fwd (e : CollEntry) (count : Nat) : Nat := if e.algo = 1 then count / 2 / 32 * 32 else count

/-- The two directions of a shard: forward or not, first element, count. -/
def CollEntry.ways (e : CollEntry) (count : Nat) : List (Bool × Nat × Nat) :=
  let h := e.fwd count
  ([(true, 0, h), (false, h, count - h)]).filter fun w => w.2.2 != 0

/-- The next position of a ring. -/
def CollEntry.next (e : CollEntry) (fwd : Bool) (pos : Nat) : Nat :=
  if fwd then (pos + 1) % e.members else (pos + e.members - 1) % e.members

/-- The ring step at which `pos` adds to shard `j`; n where it is the owner. -/
def CollEntry.stepAt (e : CollEntry) (fwd : Bool) (pos j : Nat) : Nat :=
  let d := if fwd then (pos + e.members - j) % e.members else (j + e.members - pos) % e.members
  if d = 0 then e.members else d

/-- Own elements from index `first`. -/
def Coll.mine (x : Coll) (first n : Nat) : List Nat := (x.own.drop first).take n

/-- R256: this position begins the partial sums of the shards whose order starts at it. -/
def State.ringStart (s : State) (k : CollKey) (x : Coll) : State :=
  let e := s.entry k.entry
  let c := x.rc.count
  (e.ways c).foldl (fun t w =>
    let j := e.next (!w.1) e.pos
    let to' := e.next w.1 e.pos
    t.collVals k (some to') 0 (e.stepAt w.1 to' j) (j * c + w.2.1) false (x.mine (j * c + w.2.1) w.2.2)) s

/-- R256: a shard of this position passed on around the ring as a result. -/
def State.ringShare (s : State) (k : CollKey) (j first : Nat) (vals : List Nat) (fwd : Bool) : State :=
  let e := s.entry k.entry
  let to' := e.next fwd e.pos
  if to' = j then s else s.collVals k (some to') 1 (e.stepAt fwd to' j) first false vals

/-- R256: a ring partial that arrives: added to, and sent on or final. -/
def State.ringPartial (s : State) (k : CollKey) (x : Coll) (first : Nat) (vals : List Nat) : State :=
  let e := s.entry k.entry
  let c := max x.rc.count 1
  let j := first / c
  let fwd := decide (first % c < e.fwd x.rc.count)
  let a := (s.modColl k fun y => { y with arrived := y.arrived + vals.length }).collAdd k vals (x.mine first vals.length)
  if j = e.pos then
    if e.op = 2 then
      let w := a.2.collWire k x a.1
      (w.2.collResult k first w.1).ringShare k j first w.1 fwd
    else a.2.collResult k first a.1
  else
    let to' := e.next fwd e.pos
    a.2.collVals k (some to') 0 (e.stepAt fwd to' j) first false a.1

/-- R256: a ring result that arrives: written, and sent on. -/
def State.ringResult (s : State) (k : CollKey) (x : Coll) (first : Nat) (vals : List Nat) : State :=
  let e := s.entry k.entry
  let c := max x.rc.count 1
  (s.collResult k first vals).ringShare k (first / c) first vals (decide (first % c < e.fwd x.rc.count))

/-- The trees of a collective: root, first element, elements (R256). -/
def CollEntry.trees (e : CollEntry) (count : Nat) : List (Nat × Nat × Nat) :=
  match e.op with
  | 0 => (List.range e.members).map fun j => (j, j * count, count)
  | 2 | 4 => [(0, 0, e.members * count)]
  | _ => [(0, 0, count)]

/-- The label of this position in the tree of root `t`. -/
def CollEntry.label (e : CollEntry) (t : Nat) : Nat := (e.pos + e.members - t) % e.members

/-- Labels of the children of a label. -/
def CollEntry.children (e : CollEntry) (q : Nat) : List Nat :=
  ((List.range e.treeK).map fun i => e.treeK * q + 1 + i).filter fun c => decide (c < e.members)

/-- Position of a label. -/
def CollEntry.place (e : CollEntry) (t q : Nat) : Nat := (q + t) % e.members

/-- Depth of a label. -/
def CollEntry.depth (e : CollEntry) : Nat → Nat → Nat
  | 0, _ => 0
  | n + 1, q => if q = 0 then 0 else CollEntry.depth e n ((q - 1) / e.treeK) + 1

/-- Positions of the subtree of a label. -/
def CollEntry.subtree (e : CollEntry) (t : Nat) : Nat → Nat → List Nat
  | 0, _ => []
  | n + 1, q => e.place t q :: (e.children q).flatMap fun c => CollEntry.subtree e t n c

/-- A partial of position `pos` that covers a tree's elements in full. -/
def Coll.partialOf (x : Coll) (pos first n : Nat) : Option (List Nat) :=
  allSome ((List.range n).map fun i =>
    let idx := first + i
    match x.pieces.find? fun p => p.pos == pos && decide (p.first ≤ idx) && decide (idx < p.first + p.vals.length) with
    | some p => p.vals[idx - p.first]?
    | none => none)

/-- R263: the fabric time until which this node of a tree waits. -/
def Coll.limit (x : Coll) (e : CollEntry) (t : Nat) : Nat :=
  x.rc.deadline.toNat - e.depth 32 (e.label t) * e.dstep

/-- R263: the late buffer of a node can be read now. -/
def State.lateReady (s : State) (x : Coll) (e : CollEntry) (first n : Nat) : Bool :=
  e.late != 1 || match (s.rakeRead x (e.lateBase + 4 * first) (4 * n)).1 with
    | .held | .full => false
    | _ => true

/-- R256, R263: the late buffer taken into a partial: its elements, zeroed as they are used. NONREPRO where a late contribution was in it
(R257). -/
def State.lateTake (s : State) (k : CollKey) (x : Coll) (e : CollEntry) (first n : Nat) : Option (List Nat) × State :=
  if e.late ≠ 1 then (none, s)
  else
    let r := s.rakeRead x (e.lateBase + 4 * first) (4 * n)
    match r.1 with
    | .ok bs =>
      let vs := unpack 32 bs n
      (some vs, (r.2.rakeWrite k (e.lateBase + 4 * first) (List.replicate (4 * n) 0)).modColl k fun y =>
        { y with lateApplied := true, nonrepro := y.nonrepro || vs.any (· != 0) })
    | .refused c => (none, r.2.collFail k c)
    | _ => (none, r.2)

/-- R256: results sent down a tree. -/
def State.treeDown (s : State) (k : CollKey) (t first : Nat) (vals : List Nat) : State :=
  let e := s.entry k.entry
  let q := e.label t
  (e.children q).foldl (fun u c =>
    u.collVals k (some (e.place t c)) (if e.op = 7 then 4 else 1) (e.depth 32 c) first false vals) s

/-- Key of a node among those that have sent: entry and tree. -/
def nodeKey (entry tree : Nat) : Nat := 16384 * entry + tree

/-- R256, R263: sub(q) of one tree, without the children whose partial has not arrived. -/
def State.treeSub (s : State) (k : CollKey) (i : Nat) (v : Nat × Nat × Nat) : State :=
  match s.coll k with
  | none => s
  | some x =>
    let e := s.entry k.entry
    let q := e.label v.1
    let cs := e.children q
    let gone := cs.filter fun c => (x.partialOf (e.place v.1 c) v.2.1 v.2.2).isNone
    let miss := gone.flatMap fun c => e.subtree v.1 e.members c
    let a := cs.foldl (fun (acc : List Nat × State) c =>
      match x.partialOf (e.place v.1 c) v.2.1 v.2.2 with
      | some l => acc.2.collAdd k acc.1 l
      | none => acc) (x.mine v.2.1 v.2.2, s)
    let l := a.2.lateTake k x e v.2.1 v.2.2
    let b := match l.1 with
      | some vs => l.2.collAdd k a.1 vs
      | none => (a.1, l.2)
    let t := (b.2.modColl k fun y => { y with
      sentWas := y.sentWas ++ [(nodeKey k.entry i, b.2.rake.sent.get none (nodeKey k.entry i))]
      reduced := y.reduced ++ [i], missing := (y.missing ++ miss).eraseDups
      nonrepro := y.nonrepro || !miss.isEmpty })
    let t1 : State := { t with rake := { t.rake with sent := t.rake.sent.set none (nodeKey k.entry i) (some k.inst) } }
    if q = 0 then
      if e.op = 2 ∨ e.op = 7 then
        let w := t1.collWire k x b.1
        (w.2.collResult k v.2.1 w.1).treeDown k v.1 v.2.1 w.1
      else t1.collResult k v.2.1 b.1
    else
      let late := x.rc.deadline != 0 && decide (x.limit e v.1 < s.sync.ft.toNat)
      t1.collVals k (some (e.place v.1 ((q - 1) / e.treeK))) (if e.op = 7 then 4 else 0) (e.depth 32 q) v.2.1 late b.1

/-- The trees whose children have all sent, or whose deadline has passed (`force`), are reduced. The deadline passes after its cycle
(Table 10-16); a node whose late buffer cannot be read yet waits. -/
def State.treeRun (s : State) (k : CollKey) (force : Bool) : State :=
  match s.coll k with
  | none => s
  | some x =>
    let e := s.entry k.entry
    let vs := e.trees x.rc.count
    (List.range vs.length).foldl (fun t i =>
      match vs[i]? with
      | none => t
      | some v =>
        let full := (e.children (e.label v.1)).all fun c => (x.partialOf (e.place v.1 c) v.2.1 v.2.2).isSome
        if x.reduced.contains i ∨ !t.lateReady x e v.2.1 v.2.2 then t
        else if full ∨ (force ∧ x.limit e v.1 < s.sync.ft.toNat) then t.treeSub k i v
        else t) s

/-- The tree that an element belongs to. -/
def CollEntry.treeOf (e : CollEntry) (count idx : Nat) : Nat := if e.op = 0 then idx / max count 1 else 0

/-- R263: a late partial discarded and counted. -/
def State.lateDrop (s : State) (k : Option CollKey) (n : Nat) : State :=
  let t : State := { s with rake := { s.rake with lateDropped := s.rake.lateDropped + BitVec.ofNat 64 n } }
  match k with
  | some q => t.modColl q fun y => { y with dropped := y.dropped + n }
  | none => t

/-- R147, R263: the ACCUMULATE of a late partial, ordered by its sender and its instance (log entry 42). -/
def lateReq (e : CollEntry) (x : Pkt) (inst first : Nat) (vals : List Nat) : Req where
  unit := 0x60
  kind := .acc
  addr := e.lateBase + 4 * first
  len := 4 * vals.length
  data := pack 32 vals
  prov := x.prov
  epochLo := x.epochLo
  ty := Ty.fp32.code
  op := 0
  seq := inst
  orderId := some x.src

/-- R263: a partial of instance `inst` that comes after its node has sent it: to the late buffer, until the node has sent the next instance;
then, or under LATE_DROP, it is dropped and counted. -/
def State.lateIn (s : State) (e : CollEntry) (k : Option CollKey) (x : Pkt) (entry tree inst first : Nat) (vals : List Nat) : State :=
  if e.late = 1 ∧ s.rake.sent.get none (nodeKey entry tree) = some inst then
    let r := lateReq e x inst first vals
    let q := s.memReq r
    let t := if q.1 = .full then s.parkReq r else q.2
    { t with rake := { t.rake with lateSpans := ((r.addr, r.len) :: t.rake.lateSpans).eraseDups } }
  else s.lateDrop k vals.length

/-- R256, R263: a partial from a child of a tree. -/
def State.treePartial (s : State) (k : CollKey) (c : Coll) (x : Pkt) (pos step first : Nat) (late : Bool) (vals : List Nat) : State :=
  let e := s.entry k.entry
  let i := e.treeOf c.rc.count first
  if c.reduced.contains i then s.lateIn e (some k) x k.entry i k.inst first vals
  else
    let t := s.modColl k fun y => { y with
      pieces := y.pieces ++ [{ pos := pos, kind := 0, step := step, late := late, first := first, vals := vals }] }
    t.treeRun k false

/-- R256: a result that comes down a tree. -/
def State.treeResult (s : State) (k : CollKey) (x : Coll) (first : Nat) (vals : List Nat) : State :=
  let e := s.entry k.entry
  let t := if e.op = 0 then first / max x.rc.count 1 else 0
  (s.collResult k first vals).treeDown k t first vals

/-- R264: this position's counts for the others, and where its data for them begins. -/
def Coll.sendAt (x : Coll) (i : Nat) : Nat := sumOf (x.own.take i)

/-- R264: bytes of position `i` delivered from offset `first`, as far as RECV_CAP lets them. -/
def State.a2aLand (s : State) (k : CollKey) (x : Coll) (i first : Nat) (bs : List Byte) : State :=
  let cap := x.rc.aux2
  let t := s.rakeWrite k (x.rc.dst + i * cap + first) (bs.take (cap - first))
  t.modColl k fun y => { y with
    arrived := y.arrived + bs.length, trunc := y.trunc || decide (cap < first + bs.length) }

/-- R264: the count of position `i` has arrived; RECV_COUNT takes what will be delivered. -/
def State.a2aCount (s : State) (k : CollKey) (x : Coll) (i n : Nat) : State :=
  let e := s.entry k.entry
  (s.modColl k fun y => { y with
    pieces := y.pieces ++ [{ pos := i, kind := 2, step := 0, late := false, first := 0, vals := [n] }] }).rakeWrite k
      (x.rc.aux + 4 * e.members + 4 * i) (leBytes (min n x.rc.aux2) 4)

/-- Bytes sent as raw data to a module. -/
def State.collBytes (s : State) (k : CollKey) (to' : Nat) (kind first off : Nat) (bs : List Byte) : State :=
  (chunksOf 8176 bs.length).foldl (fun t c =>
    t.collPkt k (some to') kind 0 (first + c.1) c.2 (off + c.1) false ((bs.drop c.1).take c.2)) s

/-- R264: counts first, then the data; the own share through local memory. -/
def State.a2aStart (s : State) (k : CollKey) (x : Coll) : State :=
  let e := s.entry k.entry
  let others := (List.range e.members).filter (· != e.pos)
  let cnt (i : Nat) : Nat := (x.own[i]?).getD 0
  let t := others.foldl (fun u i => u.collPkt k (some (s.member e i)) 2 0 0 1 0 false (leBytes (cnt i) 4)) s
  let t1 := others.foldl (fun u i =>
    let r := u.rakeRead x (x.rc.src + x.sendAt i) (cnt i)
    match r.1 with
    | .ok bs => r.2.collBytes k (s.member e i) 1 0 0 bs
    | .refused c => r.2.collFail k c
    | _ => r.2) t
  let t2 := t1.a2aCount k x e.pos (cnt e.pos)
  let r := t2.rakeRead x (x.rc.src + x.sendAt e.pos) (cnt e.pos)
  match r.1 with
  | .ok bs => r.2.a2aLand k x e.pos 0 bs
  | .refused c => r.2.collFail k c
  | _ => r.2

/-- R265: every segment sent to its module; one for this module moves through local memory. -/
def State.permuteStart (s : State) (k : CollKey) (x : Coll) : State :=
  (List.range x.rc.aux2).foldl (fun t i =>
    let d := t.rakeRead x (x.rc.aux + 32 * i) 32
    match d.1 with
    | .ok seg =>
      let w (j : Nat) : Nat := leNat ((seg.drop (8 * j)).take 8)
      let id := bits (w 0) 13 0
      let r := d.2.rakeRead x (bits (w 1) 47 0) (bits (w 3) 39 0)
      (match r.1 with
        | .ok bs =>
          if id = s.fab.id then r.2.rakeWrite k (bits (w 2) 43 0) bs else r.2.collBytes k id 3 0 (bits (w 2) 43 0) bs
        | .refused c => r.2.collFail k c
        | _ => r.2)
    | .refused c => d.2.collFail k c
    | _ => d.2) s

/-- Elements of this position's contribution (R255): n shards, one shard, or what the operation reads itself. -/
def CollEntry.ownCount (e : CollEntry) (count : Nat) : Nat :=
  match e.op with
  | 0 | 2 | 4 => e.members * count
  | 1 => count
  | 3 => if e.pos = 0 then count else 0
  | 7 => 1
  | _ => 0

/-- R256: what this position does once its contribution is read. What it gathers it stores as its peers do, as wire(x). -/
def State.collGo (s : State) (k : CollKey) : State :=
  match s.coll k with
  | none => s
  | some x =>
    let e := s.entry k.entry
    let c := x.rc.count
    match e.op, e.algo with
    | 5, _ => s.a2aStart k x
    | 6, _ => s.permuteStart k x
    | 1, 3 =>
      let w := s.collWire k x x.own
      let t := w.2.collResult k (e.pos * c) w.1
      if e.members = 1 then t else t.collVals k none 1 0 (e.pos * c) false x.own
    | 1, _ =>
      let v := s.collWire k x x.own
      (e.ways c).foldl (fun t w => t.ringShare k e.pos (e.pos * c + w.2.1) (x.mine w.2.1 w.2.2) w.1) (v.2.collResult k (e.pos * c) v.1)
    | 3, 3 =>
      if e.pos = 0 then
        let w := s.collWire k x x.own
        let t := w.2.collResult k 0 w.1
        if e.members = 1 then t else t.collVals k none 1 0 0 false x.own
      else s
    | 3, _ =>
      if e.pos = 0 then
        let w := s.collWire k x x.own
        (w.2.collResult k 0 w.1).treeDown k 0 0 x.own
      else s
    | _, 2 => s.treeRun k false
    | _, _ =>
      if e.members = 1 then
        let w := if e.op = 2 then s.collWire k x x.own else (x.own, s)
        w.2.collResult k 0 w.1
      else s.ringStart k x

/-- Every result that this module owns is written, and all that it owes others is sent (R259). -/
def State.collWork (s : State) (x : Coll) : Bool :=
  let e := s.entry x.rc.coll
  let c := x.rc.count
  let n := e.members
  let ring := (n - 1) * c
  match e.op with
  | 0 => decide (c ≤ x.written) && (if e.algo = 2 then decide (n ≤ x.reduced.length) else decide (ring ≤ x.arrived))
  | 1 => decide (n * c ≤ x.written)
  | 2 => decide (n * c ≤ x.written) && (if e.algo = 2 then !x.reduced.isEmpty else decide (ring ≤ x.arrived))
  | 3 => decide (c ≤ x.written)
  | 4 => !x.reduced.isEmpty && (e.pos != 0 || decide (n * c ≤ x.written))
  | 5 =>
    let cs := x.pieces.filter fun p => p.kind == 2
    decide (n ≤ cs.length) && decide (sumOf (cs.map fun p => p.vals.headD 0) ≤ x.arrived)
  | 6 => decide (c ≤ x.arrived)
  | _ => decide (1 ≤ x.written)

/-- R266: `a` is an older attempt than `b`. -/
def olderAttempt (a b : Nat) : Bool := decide (a < b % 16)

/-- COLL_DATA kept for later. -/
def State.keepData (s : State) (x : Pkt) : State :=
  { s with rake := { s.rake with heldData := s.rake.heldData ++ [x] } }

/-- Fields of the head (Table 10-6). -/
def Pkt.collEntry (x : Pkt) : Nat := leNat (x.payload.take 2) % 2 ^ 12
def Pkt.collAttempt (x : Pkt) : Nat := leNat (x.payload.take 2) / 2 ^ 12 % 16
def Pkt.collInst (x : Pkt) : Nat := leNat ((x.payload.drop 2).take 2)
def Pkt.collPos (x : Pkt) : Nat := leNat ((x.payload.drop 4).take 2) % 2 ^ 15
def Pkt.collLate (x : Pkt) : Bool := bit (leNat ((x.payload.drop 4).take 2)) 15
def Pkt.collN (x : Pkt) : Nat := leNat ((x.payload.drop 6).take 2)
def Pkt.collFirst (x : Pkt) : Nat := leNat ((x.payload.drop 8).take 5)
def Pkt.collWire (x : Pkt) : Nat := ((x.payload[13]?).getD 0).toNat % 4
def Pkt.collStep (x : Pkt) : Nat := ((x.payload[13]?).getD 0).toNat / 4 % 16
def Pkt.collKind (x : Pkt) : Nat := ((x.payload[14]?).getD 0).toNat % 16
def Pkt.collBody (x : Pkt) : List Byte := x.payload.drop 16

/-- Elements of a packet of an entry: FP32 codes, or bytes. -/
def Pkt.collVals (x : Pkt) (raw : Bool) : List Nat :=
  if raw then unpack 8 x.collBody x.collN else wireDec x.collWire x.collN x.collBody

/-- The end of the shard or tree that an element belongs to: what fills an FP8 block beyond it is not data (R258). -/
def CollEntry.spanEnd (e : CollEntry) (count first : Nat) : Nat :=
  if e.op = 3 ∨ e.op = 7 then count
  else if e.algo = 2 ∧ e.op ≠ 0 then e.members * count
  else (first / max count 1 + 1) * count

/-- R265: bytes of a permute segment of a remote module, judged as its write. -/
def State.permuteLand (s : State) (k : CollKey) (x : Pkt) : Perf × State :=
  let bs := x.collBody.take x.collN
  let r : Req := { unit := 0x60, remote := true, srcId := x.src, kind := .write, addr := x.offset, len := bs.length, data := bs
                   prov := x.prov, epochLo := x.epochLo, origin := .packet x.src x.cls x.vc x.seq x.dst x.mcast }
  let q := s.memReq r
  let t := q.2.modColl k fun y => { y with arrived := y.arrived + bs.length }
  match q.1 with
  | .refused c => (.refused c, q.2)
  | .full => (.full, s)
  | .held => (.held, t)
  | .ok _ => (.ok, t)

/-- COLL_DATA of an active collective. -/
def State.collTake (s0 : State) (c : Coll) (x : Pkt) : Perf × State :=
  let k := c.key
  let e := s0.entry k.entry
  let raw := e.raw c.rc
  let vals := (x.collVals raw).take (e.spanEnd c.rc.count x.collFirst - x.collFirst)
  let s := if e.op = 5 ∨ e.op = 6 ∨ raw ∨ x.collWire = 0 then s0 else s0.modColl k fun y => { y with cvt := y.cvt.or (widenCvt vals) }
  let pos := x.collPos
  match x.collKind with
  | 0 => (.ok, if e.algo = 2 then s.treePartial k c x pos x.collStep x.collFirst x.collLate vals
      else s.ringPartial k c x.collFirst vals)
  | 1 =>
    if e.op = 5 then (.ok, s.a2aLand k c pos x.collFirst (x.collBody.take x.collN))
    else (.ok, if e.algo = 2 then s.treeResult k c x.collFirst vals
      else if e.algo = 3 then s.collResult k x.collFirst vals
      else s.ringResult k c x.collFirst vals)
  | 2 => (.ok, s.a2aCount k c pos (leNat (x.collBody.take 4)))
  | 3 => s.permuteLand k x
  | _ =>
    let parent := decide (e.label 0 ≠ 0) && pos == e.place 0 ((e.label 0 - 1) / e.treeK)
    (.ok, if parent then s.treeResult k c x.collFirst vals
      else s.treePartial k c x pos x.collStep x.collFirst x.collLate vals)

/-- R258, R263, R266: COLL_DATA at the rake. -/
def State.collIn (s : State) (x : Pkt) : Perf × State :=
  let i := x.collEntry
  let e := s.entry i
  if !s.rake.valid || e.members == 0 then
    (.refused Err.collForm, { s with rake := { s.rake with err := true, errCode := first s.rake.err s.rake.errCode Err.collForm } }.log
      { code := Err.collForm, unit := 0x60, srcId := some x.src, remote := true })
  else match s.rake.active.find? fun c => c.rc.coll == i && c.rc.inst == x.collInst with
    | some c =>
      if s.collProv c && olderAttempt x.collAttempt c.attempt then
        (.ok, { s with rake := { s.rake with stale := s.rake.stale + 1 } })
      else if s.collProv c && decide (c.attempt % 16 < x.collAttempt) then (.ok, s.keepData x)
      else s.collTake c x
    | none =>
      let c := s.rake.counts.get 0 i
      let tree := e.treeOf c x.collFirst
      let after := match s.rake.sent.get none (nodeKey i tree) with
        | some j => later x.collInst j
        | none => true
      if e.algo = 2 ∧ (x.collKind = 0 ∨ x.collKind = 4) ∧ e.late ≠ 0 ∧ !after then
        (.ok, s.lateIn e none x i tree x.collInst x.collFirst ((x.collVals false).take (e.spanEnd c x.collFirst - x.collFirst)))
      else (.ok, s.keepData x)

/-- COLL_DATA that was kept is handed to the rake again. -/
def State.replayData (s : State) : State :=
  let l := s.rake.heldData
  l.foldl (fun t x =>
    let r := t.collIn x
    if r.1 = .full then t.keepData x else r.2) { s with rake := { s.rake with heldData := [] } }

/-- Operations and algorithms of Table 10-4. -/
def algoOk (op algo : Nat) : Bool :=
  match op with
  | 0 | 2 => decide (algo ≤ 2)
  | 1 => algo == 0 || algo == 1 || algo == 3
  | 3 => algo == 2 || algo == 3
  | 4 | 7 => algo == 2
  | 5 | 6 => algo == 0
  | _ => false

/-- A collective entry from its eight words (Table 10-3). -/
def collEntryOf (w : Nat → Nat) : CollEntry where
  op := bits (w 0) 3 0
  algo := bits (w 0) 5 4
  wire := bits (w 0) 7 6
  treeK := bits (w 0) 11 8
  normEn := bit (w 0) 12
  normIdx := bits (w 0) 16 13
  late := bits (w 0) 18 17
  group := bits (w 0) 30 19
  members := bits (w 0) 45 31
  pos := bits (w 0) 60 46
  cls := bits (w 0) 62 61
  memberBase := bits (w 1) 31 0
  dstep := bits (w 1) 63 32
  lateBase := bits (w 2) 47 0

/-- R254: an entry that the plan may hold. `ms` is the MEMBERS section, `groupOk` whether a group is VALID. -/
def CollEntry.ok (e : CollEntry) (w : Nat → Nat) (ms : List Nat) (self : Nat) (groupOk : Nat → Bool) : Bool :=
  algoOk e.op e.algo && e.members != 0 && decide (e.pos < e.members) && decide (e.memberBase + e.members ≤ ms.length)
    && ms[e.memberBase + e.pos]? == some self && (e.algo != 3 || groupOk e.group) && !bit (w 0) 63 && w 2 / 2 ^ 48 == 0
    && (List.range 5).all (fun i => w (3 + i) == 0) && decide (e.wire < 3) && decide (e.late < 3)
    && (e.algo != 2 || decide (2 ≤ e.treeK)) && (if e.op = 7 then e.cls == 0 else e.cls == 1 || e.cls == 3)

/-- A launch record from its 64 bytes (Table 10-5); none for a non-zero RSVD field. -/
def collRecOf (bs : List Byte) : Option CollRec :=
  let w (i : Nat) : Nat := leNat ((bs.drop (8 * i)).take 8)
  if bits (w 0) 15 12 = 0 ∧ w 1 / 2 ^ 56 = 0 ∧ w 2 / 2 ^ 48 = 0 ∧ w 3 / 2 ^ 40 = 0 ∧ w 5 / 2 ^ 48 = 0 ∧ w 6 / 2 ^ 48 = 0
      ∧ w 7 / 2 ^ 40 = 0 then
    some { coll := bits (w 0) 11 0, inst := bits (w 0) 31 16, counter := bits (w 0) 47 32, inc := bits (w 0) 63 48,
           src := bits (w 1) 47 0, srcTy := bits (w 1) 51 48, dstTy := bits (w 1) 55 52, dst := bits (w 2) 47 0,
           count := bits (w 3) 39 0, deadline := BitVec.ofNat 64 (w 4), comp := bits (w 5) 47 0, aux := bits (w 6) 47 0,
           aux2 := bits (w 7) 39 0 }
  else none

/-- R255, R260: the record is one that the rake accepts. -/
def State.collOk (s : State) (r : CollRec) : Bool :=
  let e := s.entry r.coll
  let fb (t : Nat) : Bool := t == Ty.fp32.code || t == Ty.bf16.code
  let types := match e.op with
    | 0 | 2 | 4 => fb r.srcTy && fb r.dstTy
    | 1 | 3 => (Ty.ofCode r.srcTy).isSome && (Ty.ofCode r.dstTy).isSome
        && (r.srcTy == r.dstTy || (e.wire != 2 && r.srcTy != Ty.bytes.code && r.dstTy != Ty.bytes.code))
    | 5 | 6 => r.srcTy == Ty.bytes.code && r.dstTy == Ty.bytes.code
    | _ => r.srcTy == Ty.fp32.code && r.dstTy == Ty.fp32.code
  s.rake.valid && e.members != 0 && types && (r.deadline == 0 || e.late != 0) && r.comp % 64 == 0

/-- R259: the completion record (Table 10-7). -/
def Coll.record (x : Coll) (ft : Word) : List Byte :=
  wordBytes [x.status + x.cvt.bits * 2 ^ 16 + x.nonrepro.toNat * 2 ^ 21 + x.lateApplied.toNat * 2 ^ 22
      + x.nonfinite.toNat * 2 ^ 23 + x.trunc.toNat * 2 ^ 24 + x.missing.length % 2 ^ 15 * 2 ^ 32 + x.fenced % 2 ^ 15 * 2 ^ 47,
    x.delivered % 2 ^ 15, x.tStart.toNat, ft.toNat, x.bytesTx, x.dropped, 0, 0]

/-- R263: the missing bitmap. -/
def Coll.bitmap (x : Coll) (n : Nat) : List Byte :=
  (List.range ((n + 7) / 8)).map fun i => BitVec.ofNat 8 (bitsOf 8 fun j => x.missing.contains (8 * i + j))

/-- R263: this position holds the result of a tree. -/
def CollEntry.holdsResult (e : CollEntry) : Bool := e.op == 0 || e.pos == 0

end Sys2Proof.Machine
end

