-- ==== Sys2Proof/Machine/RakeCmds.lean ====
section
/-! DEFINITION. Commands of the rake: a queued launch starts, a deadline passes, a collective completes, COLL_DATA arrives, a
squash completes (R118, R255, R258, R259, R263, R266). -/

namespace Sys2Proof.Machine

open Sys2Proof.Num

/-- The lowest rake watch slot that is neither armed nor kept by an active collective (Table 07-2, R263). -/
def State.rakeSlot (s : State) : Option Nat :=
  ((List.range 224).map (3584 + ·)).find? fun i =>
    (s.sync.watches.get none i).isNone && s.rake.active.all fun x => x.slot != some i

/-- Where a collective's own contribution lies, and its bytes (R255, R264). -/
def State.ownSpan (s : State) (x : Coll) : Nat × Nat :=
  let e := s.entry x.rc.coll
  if e.op = 5 then (x.rc.aux, 4 * e.members)
  else (x.rc.src, (((Ty.ofCode x.rc.srcTy).getD .bytes).bits * e.ownCount x.rc.count + 7) / 8)

/-- The contribution from its bytes: bytes or counts as they stand, else widened to FP32 (R256). -/
def State.ownVals (s : State) (x : Coll) (bs : List Byte) : List Nat :=
  let e := s.entry x.rc.coll
  let t := (Ty.ofCode x.rc.srcTy).getD .bytes
  if e.op = 5 then unpack 32 bs e.members
  else
    let cs := unpack t.bits bs (e.ownCount x.rc.count)
    if e.raw x.rc ∨ t = .fp32 then cs else cs.map fun c => toF32 (t.decode c)

/-- R39: the flags of that widening. -/
def State.ownCvt (s : State) (x : Coll) (vals : List Nat) : Cvt :=
  let e := s.entry x.rc.coll
  if e.op = 5 ∨ e.raw x.rc ∨ x.rc.srcTy = Ty.fp32.code then {} else widenCvt vals

/-- R261, R266: the accumulators at the first launch of squashable work, and a new instance that clears its own. -/
def State.normBegin (s : State) (x : Coll) : State :=
  let e := s.entry x.rc.coll
  s.modPart x.part fun p =>
    let saved := if s.collProv x ∧ p.normSave.isNone then some p.norms else p.normSave
    let cleared := if e.normEn ∧ (p.norms.get {} e.normIdx).inst ≠ some x.rc.inst then
      p.norms.set {} e.normIdx { inst := some x.rc.inst } else p.norms
    { p with normSave := saved, norms := cleared }

/-- R263: the rake's watch for the first deadline of a collective. -/
def State.deadlineArm (s : State) (x : Coll) (slot : Nat) : State :=
  let e := s.entry x.rc.coll
  let ts := (e.trees x.rc.count).map fun v => x.limit e v.1
  let time := ts.foldl min x.rc.deadline.toNat
  let w : Watch := { cond := 1, view := false, dest := 0, counter := 0, value := 0, time := BitVec.ofNat 64 time, word3 := 0
                     who := .rake, epoch := none }
  (s.armWait { unit := 0x60 } slot w).2

/-- R255, R256: a launch becomes active with its contribution read. -/
def State.collBegin (s : State) (x : Coll) (slot : Option Nat) (bs : List Byte) : State :=
  let own := s.ownVals x bs
  let y := { x with own := own, cvt := s.ownCvt x own, tStart := s.sync.ft, slot := slot, attempt := (s.part x.part).attempt }
  let t := s.normBegin x
  let e := s.entry x.rc.coll
  let spans := if e.late = 1 then
      ((e.trees x.rc.count).map fun v => (e.lateBase + 4 * v.2.1, 4 * v.2.2)) ++ t.rake.lateSpans
    else t.rake.lateSpans
  let t1 : State := { t with rake := { t.rake with
    queue := t.rake.queue.eraseP fun q => q.key == x.key, active := t.rake.active ++ [y], lateSpans := spans.eraseDups
    counts := t.rake.counts.set 0 x.rc.coll x.rc.count } }
  let t2 := match slot with
    | some i => t1.deadlineArm y i
    | none => t1
  (t2.collGo x.key).replayData

/-- R264, R265: what an all-to-all or a permute reads as it starts can be read now. A launch that meets a hold waits for it. -/
def State.readsReady (s : State) (x : Coll) (own : List Nat) : Bool :=
  let ok (r : MemRes) : Bool := r != .held && r != .full
  let e := s.entry x.rc.coll
  if e.op = 5 then (List.range e.members).all fun i => ok (s.rakeRead x (x.rc.src + sumOf (own.take i)) ((own[i]?).getD 0)).1
  else if e.op = 6 then (List.range x.rc.aux2).all fun i =>
    match (s.rakeRead x (x.rc.aux + 32 * i) 32).1 with
    | .ok seg => ok (s.rakeRead x (bits (leNat ((seg.drop 8).take 8)) 47 0) (bits (leNat ((seg.drop 24).take 8)) 39 0)).1
    | o => ok o
  else true

/-- COLL_START: the first queued launch of partition `p` (R255). -/
def execCollStart (p : Nat) (s : State) : Step :=
  match s.rake.queue.find? fun x => x.part == p with
  | none => idle s
  | some x =>
    let mine := (s.rake.active.filter fun a => a.part == p).length
    if 64 ≤ s.rake.active.length ∨ 16 ≤ mine ∨ (s.coll x.key).isSome ∨ (x.rc.deadline ≠ 0 ∧ s.rakeSlot.isNone) then idle s
    else
      let sp := s.ownSpan x
      let r := s.rakeRead x sp.1 sp.2
      let slot := if x.rc.deadline = 0 then none else s.rakeSlot
      match r.1 with
      | .ok bs => guarded (s.readsReady x (s.ownVals x bs)) s (served (r.2.collBegin x slot bs))
      | .refused c =>
        let t : State := { r.2 with rake := { r.2.rake with
          queue := r.2.rake.queue.eraseP fun q => q.key == x.key
          active := r.2.rake.active ++ [{ x with tStart := s.sync.ft, status := c }] } }
        done (.refused c) t
      | _ => idle s

/-- COLL_DEADLINE: the deadline of a node of an active tree has passed (R263). -/
def execCollDeadline (p entry inst : Nat) (s : State) : Step :=
  let k : CollKey := { part := p, entry := entry, inst := inst }
  match s.coll k with
  | none => idle s
  | some x =>
    let e := s.entry entry
    let vs := e.trees x.rc.count
    guarded (x.rc.deadline != 0 && e.algo == 2 && (List.range vs.length).any fun i => match vs[i]? with
        | some v => !x.reduced.contains i && decide (x.limit e v.1 < s.sync.ft.toNat)
        | none => false) s
      (served (s.treeRun k true))

/-- No request of the rake waits at a target. -/
def State.rakeQuiet (s : State) : Bool := s.mem.held.all fun e => e.2.all fun h => h.req.unit != 0x60

/-- R259: a collective may complete: refused, or all written and performed. -/
def State.collReady (s : State) (k : CollKey) (x : Coll) : Bool :=
  if x.ended then s.rakeQuiet
  else x.status != 0 || (s.collWork x && s.outstanding (.rake k.part k.entry k.inst) == 0 && s.rakeQuiet)

/-- A tree has all its partials and waits for its late buffer. -/
def State.treeWaits (s : State) (x : Coll) : Bool :=
  let e := s.entry x.rc.coll
  let vs := e.trees x.rc.count
  e.algo == 2 && (List.range vs.length).any fun i => match vs[i]? with
    | some v => !x.reduced.contains i && s.lateReady x e v.2.1 v.2.2
        && (e.children (e.label v.1)).all fun c => (x.partialOf (e.place v.1 c) v.2.1 v.2.2).isSome
    | none => false

/-- A refusal of the rake: RAKE_ERR and a log record (R11, R271). -/
def State.rakeErr (s : State) (c : Code) (p : Option Nat) (prov : Bool) (addr : Option Nat := none) : State :=
  { s with rake := { s.rake with err := true, errCode := first s.rake.err s.rake.errCode c } }.log
    { code := c, unit := 0x60, part := p, prov := prov, addr := addr }

/-- A collective leaves the rake with its watch slot. -/
def State.collDrop (s : State) (k : CollKey) (slot : Option Nat) : State :=
  let t : State := { s with rake := { s.rake with active := s.rake.active.filter fun x => x.key != k } }
  t.cancelWatches fun i _ => some i == slot

/-- R259, R263: the record is written, then the bitmap, which is due from the position that holds the result of a tree under deadlines. -/
def State.collRecord (s : State) (k : CollKey) (x : Coll) : State :=
  let e := s.entry k.entry
  let t := s.rakeWrite k x.rc.comp (x.record s.sync.ft)
  (if x.rc.deadline != 0 && e.algo == 2 && e.holdsResult then t.rakeWrite k x.rc.aux (x.bitmap e.members) else t).modColl k fun y =>
    { y with ended := true }

/-- R259: both writes are done: INC is added; a refusal halts the partition. The record of FENCED_MEMBER holds the address of the
contribution (log entry 42). -/
def State.collFinish (s : State) (k : CollKey) (x : Coll) : State :=
  let st := x.status
  let prov := s.collProv x
  let t2 := s.collDrop k x.slot
  if st ≠ 0 then (if st / 256 = 8 then t2.rakeErr st (some x.part) prov (some x.rc.src) else t2).askHalt x.part st (some x.stream)
  else if x.rc.inc = 0 then t2
  else match t2.counterAdd { unit := 0x60, prov := prov } x.rc.counter (BitVec.ofNat 64 x.rc.inc) with
    | (none, u) => u
    | (some c, u) => u.askHalt x.part c (some x.stream)

/-- COLL_COMPLETE: the record and the bitmap, then the addition, once both are written; where one of them waits at its target, the row is
made again. A tree that waited for its late buffer goes on (R259). -/
def execCollComplete (p entry inst : Nat) (s : State) : Step :=
  let k : CollKey := { part := p, entry := entry, inst := inst }
  match s.coll k with
  | none => idle s
  | some x =>
    if !s.collReady k x then guarded (x.status == 0 && !x.ended && s.treeWaits x) s (served (s.treeRun k false))
    else
      let t := if x.ended then s else s.collRecord k x
      match t.coll k with
      | none => idle s
      | some y => if t.rakeQuiet then served (t.collFinish k y) else done .held t

/-- COLL_DATA (R258, R263, R266). -/
def execCollData (x : Pkt) (s : State) : Step := s.receive tyCollData x fun t => t.collIn x

/-- R266: the collectives of partition `p` tagged `e` are abandoned: no record, no addition. Their nodes have sent nothing. -/
def State.collAbandon (s : State) (p : Nat) (e : Word) : State :=
  let gone (x : Coll) : Bool := x.part == p && x.tag == e
  let slots := (s.rake.active.filter gone).filterMap (·.slot)
  let sent := ((s.rake.active.filter gone).flatMap (·.sentWas)).reverse.foldl (fun t e => t.set none e.1 e.2) s.rake.sent
  let t : State := { s with rake := { s.rake with
    queue := s.rake.queue.filter fun x => !gone x, active := s.rake.active.filter fun x => !gone x, sent := sent } }
  t.cancelWatches fun i _ => slots.contains i

/-- SQUASH_COMPLETE: an apply pass of the squashed epoch is taken back first (R118, R148, R149, R266). -/
def execSquashComplete (p : Nat) (s : State) : Step :=
  guarded (decide (p < 8)) s <|
    match (s.part p).squash with
    | none => idle s
    | some e =>
      let t := s.passUndo p e
      if t.squashQuiet p then served (((t.collAbandon p e).squashDone p e).replayData) else done .idle t

end Sys2Proof.Machine
end

