-- ==== Sys2Proof/Machine/FabCmds.lean ====
section
/-! DEFINITION. Commands of the fabric router and of its endpoint that carry no memory access (R197 to R212). -/

namespace Sys2Proof.Machine

/-- A refused write of a fabric register (R197, R208, R216, R217). -/
def State.fabRegRefuse (s : State) (w : Who) (off : Nat) : State :=
  ({ s with fab := { s.fab with err := true, errCode := first s.fab.err s.fab.errCode Err.routeLoad } } : State).log
    { code := Err.routeLoad, unit := w.unit, srcId := if w.remote then some w.srcId else none, part := s.partOfUnit w.unit
      addr := some (cfgBase + 0x1100000 + off), remote := w.remote }

/-- A register that only the dispatch processor writes (R216). -/
def State.fabWrite (s : State) (w : Who) (off : Nat) (x : Except Code State) : Step :=
  match w.isDispatch, x with
  | true, .ok t => served t
  | _, _ => done (.refused Err.routeLoad) (s.fabRegRefuse w off)

/-- A route entry from its bits (Table 08-11). -/
def routeOf (v : BitVec 128) : Route where
  primary := v.extractLsb' 0 36
  alt := v.extractLsb' 36 36
  dateline := v.extractLsb' 72 36
  here := v.getLsbD 108
  valid := v.getLsbD 109
  fence := v.getLsbD 110

/-- R197: a route entry written. -/
def State.routePut (s : State) (d : Nat) (v : BitVec 128) : Except Code State :=
  let e := routeOf v
  if (e.here && (d != s.fab.id || e.primary != 0)) || v.toNat / 2 ^ 111 != 0 then .error Err.routeLoad
  else .ok { s with fab := { s.fab with routes := s.fab.routes.set {} d e } }

/-- A group entry from its bits (Table 08-12). -/
def groupEntryOf (v : BitVec 128) : McGroup where
  mask := v.extractLsb' 0 40
  leaf := v.extractLsb' 40 36
  members := (v.extractLsb' 76 14).toNat
  valid := v.getLsbD 90
  dateline := v.extractLsb' 91 36

/-- R208: a group entry written. -/
def State.groupPut (s : State) (g : Nat) (v : BitVec 128) : Except Code State :=
  let e := groupEntryOf v
  if (e.leaf &&& ~~~e.mask.extractLsb' 0 36) != 0 then .error Err.routeLoad
  else .ok { s with fab := { s.fab with groups := s.fab.groups.set {} g e } }

/-- ROUTE_WRITE (R197). -/
def execRouteWrite (w : Who) (d : Nat) (v : BitVec 128) (s : State) : Step :=
  guarded (decide (d < 2 ^ 14)) s (s.fabWrite w (0x40000 + 16 * d) (s.routePut d v))

/-- MCAST_WRITE (R208). -/
def execMcastWrite (w : Who) (g : Nat) (v : BitVec 128) (s : State) : Step :=
  guarded (decide (g < 2 ^ 12)) s (s.fabWrite w (0x80000 + 16 * g) (s.groupPut g v))

/-- A transmit key of module `id`, or any. -/
def TxKey.named (k : TxKey) (id : Nat) (all : Bool) : Bool :=
  all || match k with
    | .uni i => i == id
    | .group _ => false

/-- A receive key of module `id`, or any. -/
def RxKey.named (k : RxKey) (id : Nat) (all : Bool) : Bool :=
  all || match k with
    | .uni i => i == id
    | .group i _ => i == id

/-- R207: the contexts of a module, or all, are reset; what they held of the retry store is free for others (R206). -/
def State.ctxReset (s : State) (id : Nat) (all : Bool) : State :=
  let ks := (s.fab.tx.map (·.key)).filter fun k => k.named id all
  let t := (ks.foldl (fun u k => u.failTx k Err.peerReset false) s).failReads (fun d => all || d == id) Err.peerReset
  let rx := t.fab.rx.map fun h => if h.key.named id all then RxHalf.mk h.key none 0 0 0 none [] h.last else h
  State.drainAll { t with fab := { t.fab with rx := rx } }

/-- FAB_CTX_RESET (R207, Table 08-18). -/
def execFabCtxReset (w : Who) (id : Nat) (all : Bool) (s : State) : Step :=
  guarded (decide (id < 2 ^ 14)) s (s.fabWrite w 0x14 (.ok (s.ctxReset id all)))

/-- A packet that a link has delivered enters the table of inbound packets, under the number answered (R195, R208). -/
def State.comeIn (s : State) (port : Nat) (x : Pkt) : Nat × State :=
  (s.fab.nextIn, { s with fab := { s.fab with
    nextIn := s.fab.nextIn + 1
    inbound := s.fab.inbound ++ [({ id := s.fab.nextIn, port := port, cv := 2 * x.cls + x.vc, units := x.wire / 16, pkt := x } : Inbound)] } })

def State.modIn (s : State) (id : Nat) (g : Inbound → Inbound) : State :=
  { s with fab := { s.fab with inbound := s.fab.inbound.map fun e => if e.id = id then g e else e } }

/-- R208, R211: the group's copy for a local port of this module. -/
def State.localCopy (s : State) (id : Nat) (x : Pkt) : State :=
  if (s.fab.groups.get {} (x.dst % 2 ^ 12)).takes x && !(s.fab.routes.get {} s.fab.id).fence then
    s.modIn id fun e => { e with here := true, copies := e.copies + 1 }
  else s

/-- An inbound packet with no copy to come has left the buffer. -/
def State.settleIn (s : State) (id : Nat) : State :=
  if s.fab.inbound.any fun e => e.id == id && e.copies == 0 then s.copyLeft id else s

/-- PACKET_ROUTE: a packet that a link delivers (R187, R195, R198, R199, R208, R211). What goes to a local port is performed by the
row of its type, and stays in the input buffer until then. -/
def execPacketRoute (port : Nat) (x : Pkt) (s : State) : Step :=
  guarded (decide (port < 36) && s.up port) s <|
    let c := (s.modPort port fun p => { p with rxBytes := p.rxBytes + BitVec.ofNat 64 (16 + x.body) }).comeIn port x
    let id := c.1
    let t := c.2
    if !x.formOk then
      done (.refused Err.hdrForm)
        ((if !x.mcast && x.dst % 2 ^ 14 == s.fab.id then t.dropNak Err.hdrForm x else t.fabDrop Err.hdrForm x).settleIn id)
    else if x.mcast then
      let u := (t.modIn id fun e => { e with whole := true }).replicate x fun u k d =>
        (u.modIn id fun e => { e with copies := e.copies + 1 }).toPort k d x (some id)
      served ((u.localCopy id x).settleIn id)
    else match t.way x with
      | .link k => served ((t.modIn id fun e => { e with copies := 1 }).toPort k ((t.fab.routes.get {} x.dst).dateline.getLsbD k) x (some id))
      | .toLocal => served (t.modIn id fun e => { e with copies := 1, here := true })
      | .drop e => done (.refused e) ((t.dropNak e x (if e = Err.fenced then x.dst else 0)).settleIn id)

/-- R212: the tokens of a port now: 2 a microsecond, at most 2. -/
def Port.refill (p : Port) (now : Nat) : Port :=
  let g := (now - p.tokenAt) / 500
  if 2 ≤ p.tokens + g then { p with tokens := 2, tokenAt := now }
  else { p with tokens := p.tokens + g, tokenAt := p.tokenAt + 500 * g }

/-- Whether a packet leaving on link `k` crosses a dateline (R199, R208). -/
def State.datelineOf (s : State) (x : Pkt) (k : Nat) : Bool :=
  if x.mcast then (s.fab.groups.get {} (x.dst % 2 ^ 12)).dateline.getLsbD k
  else (s.fab.routes.get {} x.dst).dateline.getLsbD k

/-- CLASS0_RELEASE: the first class-0 packet that waits at port `k` takes a token (R212). -/
def execClass0Release (k : Nat) (s : State) : Step :=
  let p := (s.port k).refill s.now
  match p.c0wait with
  | [] => idle s
  | x :: r =>
    guarded (decide (k < 36) && p.tokens != 0) s
      (served ((s.modPort k fun _ => { p with c0wait := r, tokens := p.tokens - 1 }).toPort k (s.datelineOf x k) x))

/-- An ACK or NAK reaches this module's endpoint; one that it drops is counted and logged (R187, R204, R211). -/
def State.control (s0 : State) (x : Pkt) (f : State → State) : Step :=
  let s := s0.takenIn x
  if x.dst % 2 ^ 14 ≠ s.fab.id then idle s0
  else if !x.formOk then done (.refused Err.hdrForm) (s.fabDrop Err.hdrForm x)
  else if (s.fab.routes.get {} s.fab.id).fence then done (.refused Err.fenced) (s.fabDrop Err.fenced x)
  else served (f s)

/-- The transmit half that an ACK names (R205, R210). -/
def Pkt.ackKey (x : Pkt) : TxKey := if bit x.aux 12 then .group (x.aux % 2 ^ 12) else .uni x.src

/-- The transmit half that a NAK names (R190). -/
def Pkt.nakKey (x : Pkt) : TxKey :=
  if (x.payload.getD 2 0).toNat % 2 == 1 then .group (leNat (x.payload.take 2) % 2 ^ 12)
  else .uni (leNat (x.payload.take 2) % 2 ^ 14)

/-- ACK (R204, R205, R210). -/
def execAck (x : Pkt) (s : State) : Step :=
  guarded (x.ty == tyAck) s (s.control x fun t => (State.drainTx x.ackKey 65 (t.ackIn x)).drainAll)

/-- NAK (R190, R204, R210, R211). -/
def execNak (x : Pkt) (s : State) : Step :=
  guarded (x.ty == tyNak) s (s.control x fun t => (State.drainTx x.nakKey 65 (t.nakIn x)).drainAll)

/-- ACK_TIMER (R204). -/
def execAckTimer (key : RxKey) (s : State) : Step :=
  match s.fab.rxOf key with
  | none => idle s
  | some h => match h.oldest with
    | none => idle s
    | some t => guarded (decide (t + 1000 ≤ s.now)) s (served (s.sendAck key))

/-- HELD_ACK_TIMER (R205). -/
def execHeldAckTimer (key : RxKey) (s : State) : Step :=
  match s.fab.rxOf key with
  | none => idle s
  | some h =>
    let l := h.held.filter fun e => decide (e.2 + 25000 ≤ s.now)
    guarded (!l.isEmpty) s (served (l.foldl (fun t e => t.heldAck key e.1) s))

/-- A packet is held at its target: its last HELD ACK came within the timeout (R205, R206). -/
def OutPkt.isHeld (o : OutPkt) (s : State) : Bool := o.held && decide (s.now < o.timer + 1000 * s.fab.timeout)

/-- Packets of a context sent again: all that are not held (R206). -/
def State.resend (s : State) (k : TxKey) (l : List OutPkt) : State :=
  let t := s.modTx k fun h => { h with
    retries := h.retries + 1, out := h.out.map fun o => if o.isHeld s then o else { o with timer := s.now, held := false } }
  (l.filter fun o => !o.isHeld s).foldl (fun u o => u.inject { o.pkt with retx := true }) t

/-- RETX_TIMEOUT: the timer of the oldest outstanding packet of a context has run out (R206). -/
def execRetxTimeout (key : TxKey) (s : State) : Step :=
  match s.fab.txOf key with
  | none => idle s
  | some t => match t.out with
    | [] => idle s
    | o :: _ =>
      guarded (decide (o.timer + 1000 * s.fab.timeout ≤ s.now)) s
        (if s.fab.retryMax ≤ t.retries + 1 then done (.refused Err.peerUnreachable) (s.failTx key Err.peerUnreachable true).unpark.drainAll
        else served (s.resend key t.out))

/-- TX_CONTEXT_RECLAIM (R200). A READ_REQ that an ACK has released is not outstanding (R201). -/
def execTxContextReclaim (key : TxKey) (s : State) : Step :=
  match s.fab.txOf key with
  | none => idle s
  | some t =>
    guarded (t.out.isEmpty && t.waiting.isEmpty && decide (t.idleSince + 10000000 ≤ s.now)) s
      (served ({ s with fab := { s.fab with tx := s.fab.tx.filter fun h => h.key != key } } : State).unpark)

/-- RX_CONTEXT_RECLAIM (R200). -/
def execRxContextReclaim (key : RxKey) (s : State) : Step :=
  match s.fab.rxOf key with
  | none => idle s
  | some h =>
    guarded (h.held.isEmpty && h.unacked == 0 && decide (h.last + 5000000 ≤ s.now)) s
      (served ({ s with fab := { s.fab with rx := s.fab.rx.filter fun h => h.key != key } } : State).unpark)

end Sys2Proof.Machine
end

