-- ==== Sys2Proof/Machine/OptOps.lean ====
section
/-! DEFINITION. Links and lanes: announcements, maps, migration, fades, the frame slot (R193 to R195, R219 to R246). -/

namespace Sys2Proof.Machine

namespace Err
def laserLow : Code := 0x0701
def peerMismatch : Code := 0x0702
def wrongLock : Code := 0x0703
def fadeWarning : Code := 0x0704
def fadeMigrated : Code := 0x0705
def lossOfLight : Code := 0x0706
def spareExhausted : Code := 0x0707
def migrationFailed : Code := 0x0708
def calDeferred : Code := 0x0709
def laneAssign : Code := 0x070A
def sweepFailed : Code := 0x070B
def optWrite : Code := 0x070C
def calForced : Code := 0x070D
end Err

/-- An optics event: captured, logged (R249, Tables 09-11, 09-12). -/
def State.optLog (s : State) (c : Code) (k lane : Nat) (rx : Bool) : State :=
  let x := s.opt
  let y := if x.err then x else { x with
    err := true, errCode := c, faultLink := k, faultLane := lane, faultDir := rx.toNat }
  { s with opt := y }.log { code := c, unit := 0x65, addr := some (cfgBase + 0x1210010 + 0x100 * k + 0x10 * lane) }

def OLink.modLane (l : OLink) (n : Nat) (g : Lane → Lane) : OLink := { l with lanes := l.lanes.mod {} n g }
def State.modLane (s : State) (k n : Nat) (g : Lane → Lane) : State := s.modLink k fun l => l.modLane n g

/-- R178: the parent link of fabric time is not up: the alternate link, or HOLDOVER. -/
def State.ftLost (s : State) (k : Nat) : State :=
  let x := s.sync
  if x.ctrl.enable ∧ !x.ctrl.root ∧ x.ftLink = k ∧ x.ftState ≠ .free then
    if k ≠ x.ctrl.parentLink ∧ s.up x.ctrl.parentLink then { s with sync := { x with ftLink := x.ctrl.parentLink, exch := none } }
    else if x.ctrl.altEn ∧ k ≠ x.ctrl.altLink then { s with sync := { x with ftLink := x.ctrl.altLink, exch := none } }
    else { s with sync := { x with ftState := .holdover, slew := 0, exch := none } }
  else s

/-- What a link that goes DOWN loses: its queues and the input buffer with the packets partly sent, and everything arranged with the peer
(R215, R226, Tables 08-14, 08-21). -/
def State.linkLost (s : State) (k : Nat) : State :=
  let t := s.modPort k fun p => { p with queues := [], deficit := [], used := [], inbuf := [], c0wait := [] }
  let u : State := { t with fab := { t.fab with inbound := t.fab.inbound.filter fun e => e.port != k } }
  u.modLink k fun l => { l with
    trained := false, slot := 0, rxSlot := 0, ann := [], heard := [], reqs := [], lost := [], runs := [], freed := []
    heardFreed := [], nextReport := 0, rest := [], mig := none, migRetry := none, migTries := 0, rxMig := none, loop := none
    loopAsked := none, loopRetry := none, disc := none, discRetry := none }

/-- R229, R247: the rings of a link that has fallen below MIN_LANES are swept again, those that stay OFF apart. -/
def OLink.retrain (l : OLink) : OLink :=
  (List.range 9).foldl (fun y n => y.modLane n fun x => { x with
    txState := if x.txState = 0 then 0 else 1, rxState := if x.rxState = 0 then 0 else 1, toneOk := false }) { l with cal := 1 }

/-- R213, R229: what follows a change of a link's state from that in `s0`. A link that falls below MIN_LANES goes DOWN and trains
anew. -/
def State.touch (s : State) (k : Nat) (s0 : State) : State :=
  let a := s0.linkState k
  let b := s.linkState k
  if a = b then s
  else
    let short := (s.link k).trained && b == 0
    let t := s.modLink k fun l => { l with changed := s.now }
    let u := if b = 0 then t.linkLost k else t
    let v := if short then u.modLink k OLink.retrain else u
    if 2 ≤ a ∧ b < 2 then v.ftLost k else v

/-- R229: MIN_LANES has changed: every link's state follows. -/
def State.touchAll (s0 s : State) : State := (List.range 36).foldl (fun t k => t.touch k s0) s

/-- The next multiple of 8 (R224). -/
def up8 (n : Nat) : Nat := (n + 7) / 8 * 8

/-- A lane is about to leave the map: its LEAVE is announced or asked for, or its ring is to be swept (R234). -/
def OLink.leaving (l : OLink) (rx : Bool) (n : Nat) : Bool :=
  if rx then l.heard.any (fun a => a.op == 1 && a.lane == n) || l.reqs.any (fun r => r.1 == 2 && r.2.1 == n) || (l.lane n).rxSweep != .none
  else l.ann.any (fun a => a.op == 1 && a.lane == n) || (l.lane n).txSweep != .none

/-- Lanes of a direction that stay in its map. -/
def OLink.staying (l : OLink) (rx : Bool) : Nat := ((if rx then l.rxMap else l.txMap).filter fun n => !l.leaving rx n).length

/-- R224: an announcement: from the next slot on, or once the one before it is over; it takes effect at slot E. -/
def OLink.announce (l : OLink) (op lane : Nat) : OLink :=
  let before := l.ann.filter fun a => (a.op == 4) == (op == 4)
  let a0 := before.foldl (fun n a => max n (a.effect - 3)) l.slot
  if before.any fun a => a.op == op && a.lane == lane then l
  else { l with ann := l.ann ++ [{ op := op, lane := lane, first := a0, effect := up8 (a0 + 4) }] }

/-- R224: a request to the peer, in its next three slots. -/
def OLink.ask (l : OLink) (op idx : Nat) : OLink :=
  if l.reqs.any fun r => r.1 == op && r.2.1 == idx then l else { l with reqs := l.reqs ++ [(op, idx, 3)] }

/-- R238, R253: a migration or a request stops loopback; a migration stops discovery on the spares. -/
def OLink.stopLoop (l : OLink) (now : Nat) : OLink :=
  if l.loop.isSome ∨ l.loopAsked.isSome then { l with
    loop := none, loopAsked := none, loopRetry := some (now + 10000000000)
    txRole := if l.loop.isSome then l.txRole.set 1 l.txSpare 2 else l.txRole
    rxRole := if l.loop.isSome then l.rxRole.set 1 l.rxSpare 2 else l.rxRole }
  else l

/-- The lanes that carry discovery return to their roles (R253). -/
def OLink.discOver (l : OLink) : OLink :=
  match l.disc with
  | none => l
  | some d => { l with
      disc := none
      txRole := match d.tx with
        | some r => l.txRole.set 1 r.1 r.2
        | none => l.txRole
      rxRole := match d.rx with
        | some r => l.rxRole.set 1 r.1 r.2
        | none => l.rxRole }

/-- Discovery on lane `tx` and on lane `rx` begins (R246, R253). -/
def OLink.discOn (l : OLink) (now : Nat) (tx rx : Option Nat) : OLink :=
  let put (t : Tab Nat) (n : Option Nat) : Tab Nat := match n with
    | some i => t.set 1 i 3
    | none => t
  { l with
    disc := some { since := now, tx := tx.map fun n => (n, l.txRole.get 1 n), rx := rx.map fun n => (n, l.rxRole.get 1 n) }
    discRetry := none, txRole := put l.txRole tx, rxRole := put l.rxRole rx }

def OLink.stopDisc (l : OLink) : OLink := if l.disc.isSome then { l.discOver with discRetry := some 0 } else l

/-- A migration has ended: discovery that it stopped may start again 10 µs later (R253). -/
def OLink.migEnd (l : OLink) (now : Nat) : OLink := { l with mig := none, discRetry := l.discRetry.map fun _ => now + 10000 }

/-- R243: a lane at stage 2 without a usable spare reports SPARE_EXHAUSTED, once. -/
def State.exhaust (s : State) (k lane : Nat) : State :=
  if ((s.link k).lane lane).exhausted then s
  else (s.modLane k lane fun x => { x with exhausted := true }).optLog Err.spareExhausted k lane false

/-- R241: a migration of data slot `slot` to the spare is announced; SPARE_EXHAUSTED where there is none (R243). -/
def State.migBegin (s : State) (k slot : Nat) : State :=
  let l := s.link k
  match l.txMap[slot]? with
  | none => s
  | some lane =>
    if l.mig.isSome then s
    else if !l.txSpareOk then s.exhaust k lane
    else s.modLink k fun x =>
      let y := ((x.stopLoop s.now).stopDisc).announce 4 slot
      { y with mig := some { slot := slot, lane := lane, effect := up8 (y.slot + 4), begun := s.now }, migSlot := slot }

/-- The data slot that a lane carries. -/
def slotOfLane (m : List Nat) (lane : Nat) : Option Nat := (List.range m.length).find? fun i => m[i]? == some lane

/-- A lane out of the map of its direction. -/
def mapDrop (m : List Nat) (lane : Nat) : List Nat := m.filter (· != lane)

/-- The spare in a lane's place. -/
def mapSwap (m : List Nat) (lane spare : Nat) : List Nat := m.map fun x => if x = lane then spare else x

/-- R224, R239: a change of the map of one direction: 1 LEAVE, 2 JOIN, 3 SWAP. A faded lane returns as the spare, however it left
(R243). -/
def OLink.change (l : OLink) (rx : Bool) (op lane : Nat) : OLink :=
  let m := if rx then l.rxMap else l.txMap
  let sp := if rx then l.rxSpare else l.txSpare
  let ro := if rx then l.rxRole else l.txRole
  let r : List Nat × Nat × Tab Nat := match op with
    | 1 => (mapDrop m lane, sp, ro.set 1 lane 6)
    | 2 => (if m.contains lane ∨ 8 ≤ m.length then m else m ++ [lane], sp, ro.set 1 lane 1)
    | _ => if sp < 9 ∧ m.contains lane then (mapSwap m lane sp, 15, (ro.set 1 lane 6).set 1 sp 1) else (m, sp, ro)
  let sw := op == 3 && decide (sp < 9) && m.contains lane
  let y := if rx then { l with rxMap := r.1, rxSpare := r.2.1, rxRole := r.2.2 }
    else { l with txMap := r.1, txSpare := r.2.1, txRole := r.2.2 }
  let back (faded : Bool) : Back := if op = 2 then .none else if sw ∨ faded then .spare else if op = 1 then .join else .none
  if op = 3 ∧ !sw then y
  else y.modLane lane fun x =>
    if rx then { x with rxBack := back false, rxPassed := false }
    else { x with txBack := back (decide (2 ≤ x.stage)), txPassed := false, askedOut := if op = 2 then .none else x.askedOut }

/-- R239, R243, R250: a lane that must leave: SWAP where the spare is usable and not taking another lane's slot, else LEAVE. A migration of
the lane itself that is confirmed ends by itself. -/
def State.leaveOrSwap (s : State) (k lane : Nat) : State :=
  s.modLink k fun l =>
    let own := l.mig.any fun m => m.lane == lane
    if !l.txMap.contains lane ∨ (l.mig.any fun m => m.lane == lane && m.confirmed) then l
    else (l.stopLoop s.now).announce (if l.txSpareOk && (l.mig.isNone || own) then 3 else 1) lane

/-- R234: a lane whose ring resweeps leaves the map and keeps the spare free. -/
def State.leaveFor (s : State) (k lane : Nat) (rx : Bool) : State :=
  s.modLink k fun l =>
    if rx then (if l.rxMap.contains lane then (l.stopLoop s.now).ask 2 lane else l)
    else if l.txMap.contains lane then l.announce 1 lane else l

/-- R234, R239, R243: a lane may return: its transmit ring holds lock and has passed the resweep that it owed; where the receiver asked
for it, the receiver's resweep is over too, 2.2 ms at most (R233, log entry 43); a faded one has stayed above −2 dB for 10 s. -/
def Lane.mayReturn (x : Lane) (now : Nat) : Bool :=
  let quiet := match x.above20 with
    | some t => decide (t + 10000000000 ≤ now)
    | none => false
  let swept := match x.askedOut with
    | some t => decide (t + 2200000 ≤ now)
    | none => x.txPassed
  x.txState == 3 && x.txSweep == .none && swept && (decide (x.stage < 2) || (quiet && x.txPassed))

/-- A lane that is out returns as it is to: by JOIN, or as the spare once the direction has none. -/
def State.laneBack (s : State) (k lane : Nat) : State :=
  let l := s.link k
  let x := l.lane lane
  if !x.mayReturn s.now ∨ l.txMap.contains lane then s
  else match x.txBack with
    | .none => s
    | .join => s.modLink k fun y => y.announce 2 lane
    | .spare =>
      if 9 ≤ l.txSpare then s.modLink k fun y => { y.modLane lane (fun z => { z with txBack := .none, askedOut := none }) with
        txSpare := lane, txRole := y.txRole.set 1 lane 2 }
      else s

/-- R231, R239: a fault at a receive ring. -/
def State.rxFault (s : State) (k lane : Nat) (mismatch absent : Bool) : State :=
  let t := s.modLink k fun l =>
    let y := (l.stopLoop s.now).modLane lane fun x => { x with rxState := 4, rxSweep := .fault, badRun := 0 }
    if absent then (y.ask 2 lane).ask 3 lane else y.ask 2 lane
  if mismatch then t.optLog Err.wrongLock k lane true else t

/-- R240: the stage of a relative power, dB × 256 (Table 09-7). -/
def fadeStage (rel : Int) : Nat :=
  if rel ≤ -1536 then 3 else if rel ≤ -768 then 2 else if rel ≤ -512 then 1 else 0

/-- R240: a lane after a window. -/
def Lane.fade (x : Lane) (rel : Int) (now : Nat) : Lane :=
  let a15 := if -384 < rel then some (x.above15.getD now) else none
  let a20 := if -512 < rel then some (x.above20.getD now) else none
  let clear := match a15 with
    | some t => decide (t + 10000000000 ≤ now)
    | none => false
  let st := if clear then 0 else max x.stage (fadeStage rel)
  { x with txRel := rel, above15 := a15, above20 := a20, stage := st, exhausted := x.exhausted && decide (2 ≤ st)
           gaveUp := x.gaveUp && decide (2 ≤ st) }

/-- What a lane that has moved up to a stage does (R240, R243). -/
def State.fadeUp (s : State) (k lane : Nat) (old new : Nat) : State :=
  let s1 := if old < 1 ∧ 1 ≤ new then s.optLog Err.fadeWarning k lane false else s
  if old < 3 ∧ 3 ≤ new then
    ((s1.modLane k lane fun x => { x with txState := 4 }).optLog Err.lossOfLight k lane false).leaveOrSwap k lane
  else s1

/-- R240, R244: a peer's REQ_OP 1 for data slot `slot` puts its lane at stage 2; its 10 s above −1.5 dB begin anew. -/
def State.askedStage (s : State) (k slot : Nat) : State :=
  match (s.link k).txMap[slot]? with
  | none => s
  | some n => s.modLane k n fun x => { x with stage := max x.stage 2, above15 := x.above15.map fun _ => s.now, gaveUp := false }

/-- R242: the lane that migrates among those at stage 2: the lowest power, then the lowest number. -/
def OLink.fading (l : OLink) : Option Nat :=
  (l.txMap.filter fun n => (l.lane n).stage == 2 && !(l.lane n).gaveUp).foldl (fun best n => match best with
    | none => some n
    | some b =>
      if (l.lane n).txRel < (l.lane b).txRel ∨ ((l.lane n).txRel = (l.lane b).txRel ∧ n < b) then some n else some b) none

end Sys2Proof.Machine
end

