-- ==== Sys2Proof/Machine/FrameOps.lean ====
section
/-! DEFINITION. The frame slot: chunks, codewords and the control word, and what they do at the other end (R188, R191 to R195, R222 to
R227, R241). -/

namespace Sys2Proof.Machine

/-- Runs that a control word can describe (R223). -/
def rmax (m : Nat) : Nat := (19 * m - 57) / 10

/-- Weight of a class (Table 08-18). -/
def Fab.weight (x : Fab) (c : Nat) : Nat := max 1 (if c = 1 then x.w1 else if c = 2 then x.w2 else x.w3)

def Port.queue (p : Port) (cv : Nat) : List QPkt := p.queues.get [] cv

/-- A class and VC has a packet and a credit. -/
def Port.ready (p : Port) (cv : Nat) : Bool := !(p.queue cv).isEmpty && decide (0 < p.credits cv)

/-- A packet of the class and VC is partly sent. -/
def Port.midway (p : Port) (cv : Nat) : Bool :=
  match (p.queue cv).head? with
  | some q => decide (0 < q.sent)
  | none => false

/-- R194: deficit round robin over classes 1 to 3. A class whose turn comes gains its quantum; one with nothing to send keeps
none. -/
def Port.drr (x : Fab) : Nat → Port → Option Nat × Port
  | 0, p => (none, p)
  | n + 1, p =>
    let c := if p.turn = 0 then 1 else p.turn
    let next := if c = 3 then 1 else c + 1
    let cand := ([2 * c, 2 * c + 1] : List Nat).find? p.ready
    let pass (d : Nat) : Port := { p with
      turn := next, deficit := (p.deficit.set 0 c d).mod 0 next fun v => v + 1024 * x.weight next }
    match cand with
    | none => Port.drr x n (pass 0)
    | some cv =>
      let need := ((p.queue cv).head?.map fun q => q.pkt.wire).getD 0
      if need ≤ p.deficit.get 0 c then (some cv, { p with turn := c, deficit := p.deficit.mod 0 c fun v => v - need })
      else Port.drr x n (pass (p.deficit.get 0 c))

/-- R192, R193: the class and VC of the next chunk: class 0 first, then a packet that was interrupted. -/
def Port.next (x : Fab) (p : Port) : Option Nat × Port :=
  match ([0, 1] : List Nat).find? (fun cv => p.midway cv && p.ready cv) with
  | some cv => (some cv, p)
  | none => match ([0, 1] : List Nat).find? p.ready with
    | some cv => (some cv, p)
    | none => match ((List.range 6).map (· + 2)).find? fun cv => p.midway cv && p.ready cv with
      | some cv => (some cv, p)
      | none => if ((List.range 6).map (· + 2)).any p.ready then Port.drr x 64 p else (none, p)

/-- What a chunk or a slot carries off: its bytes, and the units of inbound packets that leave, each with whether its copy ends. -/
structure Sent where
  bytes : List Byte := []
  left : List (Nat × Bool) := []
deriving DecidableEq, Repr

/-- 16 bytes, zeros after what there is. -/
def unit16 (bs : List Byte) : List Byte := bs ++ List.replicate (16 - bs.length) 0

/-- Unit `i` of a packet on a link: the header, then the payload, padded (R186, R191). -/
def Pkt.unit (x : Pkt) (i : Nat) : List Byte :=
  if i = 0 then wordBytes [x.word0, x.word1] else unit16 ((x.payload.drop (16 * (i - 1))).take 16)

/-- R188, R191: 16-byte units of one chunk of a class and VC. A packet that begins midway in a chunk of classes 1 to 3 needs its
deficit too. FTIME is stamped as the first chunk leaves its source. -/
def Port.units (self : Nat) (ft : Word) (cv : Nat) : Nat → Port → Sent → Port × Sent
  | 0, p, out => (p, out)
  | n + 1, p, out =>
    match p.queue cv with
    | [] => (p, out)
    | q :: r =>
      let c := cv / 2
      let begins := q.sent == 0
      let paid := !begins || n == 3 || c == 0 || decide (q.pkt.wire ≤ p.deficit.get 0 c)
      if !paid then (p, out)
      else
        let p1 := if begins && n != 3 && c != 0 then { p with deficit := p.deficit.mod 0 c fun v => v - q.pkt.wire } else p
        let k := if begins && q.pkt.ctl && q.pkt.src == self then { q.pkt with ftime := ft.toNat % 2 ^ 32 } else q.pkt
        let ends := decide (k.wire ≤ q.sent + 16)
        let o : Sent := { bytes := out.bytes ++ k.unit (q.sent / 16), left := out.left ++ (q.home.map fun h => (h, ends)).toList }
        if ends then
          Port.units self ft cv n { p1 with
            queues := p1.queues.set [] cv r, txBytes := p1.txBytes + BitVec.ofNat 64 (16 + k.body) } o
        else Port.units self ft cv n { p1 with queues := p1.queues.set [] cv ({ q with pkt := k, sent := q.sent + 16 } :: r) } o

/-- The chunks of one slot: the runs, newest first, as class × 2 + VC and number of chunks, and what they carry off. -/
structure SlotFill where
  runs : List (Nat × Nat) := []
  sent : Sent := {}
deriving DecidableEq, Repr

/-- R193, R195, R224: the chunks of one frame slot. -/
def Port.fillSlot (x : Fab) (ft : Word) (runMax : Nat) : Nat → Port → SlotFill → Port × SlotFill
  | 0, p, o => (p, o)
  | n + 1, p, o =>
    let r := p.next x
    match r.1 with
    | none => (r.2, o)
    | some cv =>
      let same := match o.runs with
        | (c, _) :: _ => c == cv
        | [] => false
      if !same && decide (runMax ≤ o.runs.length) then (p, o)
      else
        let u := Port.units x.id ft cv 4 r.2 {}
        let p1 := { u.1 with used := u.1.used.mod 0 cv fun v => v + 1 }
        let runs := match o.runs with
          | (c, m) :: l => if c = cv then (c, m + 1) :: l else (cv, 1) :: (c, m) :: l
          | [] => [(cv, 1)]
        let bs := o.sent.bytes ++ u.2.bytes ++ List.replicate (64 - u.2.bytes.length) 0
        Port.fillSlot x ft runMax n p1 { runs := runs, sent := { bytes := bs, left := o.sent.left ++ u.2.left } }

/-- Runs in order with their first chunks (Table 09-3); one run where there is nothing to send. -/
def startsOf : Nat → List (Nat × Nat) → List (Nat × Nat)
  | _, [] => []
  | j, (cv, n) :: l => (j, cv) :: startsOf (j + n) l

/-- The control word of a slot as a number (Table 09-3). -/
def Ctl.word (c : Ctl) : Nat :=
  fields ([(0, c.runs.length), (4, c.lost.isSome.toNat), (5, c.lost.getD 0), (13, c.cr0.1), (16, c.cr0.2), (27, c.cr1.1), (30, c.cr1.2),
      (41, c.mig.isSome.toNat), (42, c.mig.getD 0), (45, c.mapOp), (47, c.mapLane), (51, c.reqOp), (53, c.reqIdx)]
    ++ (List.range c.runs.length).map fun i => (57 + 10 * i, (c.runs.getD i (0, 0)).1 + 128 * (c.runs.getD i (0, 0)).2))

/-- The fields of a control word. -/
def ctlOf (w : Nat) : Ctl where
  runs := (List.range (bits w 3 0)).map fun i => (bits w (63 + 10 * i) (57 + 10 * i), bits w (66 + 10 * i) (64 + 10 * i))
  lost := if bit w 4 then some (bits w 12 5) else none
  cr0 := (bits w 15 13, bits w 26 16)
  cr1 := (bits w 29 27, bits w 40 30)
  mig := if bit w 41 then some (bits w 44 42) else none
  mapOp := bits w 46 45
  mapLane := bits w 50 47
  reqOp := bits w 52 51
  reqIdx := bits w 56 53

/-- R227: lane `n` sets ALIGN in slot `slot`. -/
def alignBit (n slot : Nat) : Nat := (slot % 256 == 16 * n).toNat

/-- The lane control field of data slot `i` on lane `n` (R223). -/
def laneCtl (w i n slot : Nat) : Nat := alignBit n slot + 2 * (w / 2 ^ (19 * i) % 2 ^ 19)

/-- The control word that the lane control fields of the data slots hold, the first slot's first (R223). -/
def wordOfLanes (cs : List Nat) : Nat := cs.foldr (fun c w => c / 2 % 2 ^ 19 + 2 ^ 19 * w) 0

/-- R222: the message of a codeword: 640 data bytes, then the lane control field. -/
def codeword (data : List Byte) (ctl : Nat) : List Byte := data ++ List.replicate (640 - data.length) 0 ++ leBytes ctl 3

/-- The announcement that is repeated in this slot (R224). -/
def OLink.saying (l : OLink) (mig : Bool) : Option Announce :=
  l.ann.find? fun a => (a.op == 4) == mig && decide (a.first ≤ l.slot) && decide (l.slot + 4 ≤ a.effect)

/-- R223 to R226: the control word of the next slot: announcements, the oldest request and discarded slot, and the counts of two classes
and VCs. -/
def OLink.control (l : OLink) (runs : List (Nat × Nat)) : Ctl where
  runs := if runs.isEmpty then [(0, 0)] else startsOf 0 runs.reverse
  lost := l.lost.head?.map (·.1)
  cr0 := (l.nextReport, l.freed.get 0 l.nextReport)
  cr1 := (l.nextReport + 1, l.freed.get 0 (l.nextReport + 1))
  mig := (l.saying true).map (·.lane)
  mapOp := ((l.saying false).map (·.op)).getD 0
  mapLane := ((l.saying false).map (·.lane)).getD 0
  reqOp := (l.reqs.head?.map (·.1)).getD 0
  reqIdx := (l.reqs.head?.map (·.2.1)).getD 0

/-- A migration sends its slot on two lanes (R241). -/
def OLink.duplicates (l : OLink) : Bool := l.mig.isSome && l.ann.all fun a => a.op != 4

/-- The lanes that carry data slots, in order, and the spare where a slot goes on two lanes: (data slot, lane). -/
def OLink.carriers (l : OLink) : List (Nat × Nat) :=
  ((List.range l.txMap.length).map fun i => (i, l.txMap.getD i 0)) ++
    (match l.mig with
      | some m => if l.duplicates then [(m.slot, l.txSpare)] else []
      | none => [])

/-- R222, R223, R230: the messages of the codewords of one slot, lane after lane; nothing on a lane whose ring does not hold lock. -/
def OLink.messages (l : OLink) (data : List Byte) (w : Nat) : List Byte :=
  l.carriers.flatMap fun e =>
    if (l.lane e.2).txState = 3 then codeword ((data.drop (640 * e.1)).take 640) (laneCtl w e.1 e.2 l.slot) else []

/-- A request or a discarded slot goes out in three slots, the oldest first (R224, R225). -/
def sayOnce {α : Type} (dec : α → α) (gone : α → Bool) : List α → List α
  | [] => []
  | a :: l => if gone (dec a) then l else dec a :: l

/-- R195, R225, R226: chunks of a class and VC that the peer has freed. -/
def Port.freed (p : Port) (cv n : Nat) : Port := { p with used := p.used.mod 0 cv fun v => v - n }

/-- R226: a cumulative count heard from the peer. -/
def State.creditIn (s : State) (k cv count : Nat) : State :=
  let old := (s.link k).heardFreed.get 0 cv
  (s.modPort k fun p => p.freed cv ((count + 2048 - old) % 2048)).modLink k fun l => { l with
    heardFreed := l.heardFreed.set 0 cv (count % 2048) }

/-- R225: the peer discarded slot `slot`: the credits of its chunks come back once. -/
def State.lostIn (s : State) (k slot : Nat) : State :=
  match (s.link k).runs.find? fun r => r.1 % 256 == slot && !r.2.2 with
  | none => s
  | some r =>
    (s.modPort k fun p => r.2.1.foldl (fun q e => q.freed e.1 e.2) p).modLink k fun l => { l with
      runs := l.runs.map fun e => if e.1 = r.1 then (e.1, e.2.1, true) else e }

/-- An announcement that a slot repeats (R224). -/
def OLink.hear (l : OLink) (op lane slot : Nat) : OLink :=
  let e := up8 (slot + 4)
  if l.heard.any fun a => a.op == op && a.lane == lane && a.effect == e then l
  else { l with heard := l.heard ++ [{ op := op, lane := lane, first := slot, effect := e }] }

/-- R241: the receiver of a migrating slot: two equal pairs in a row from E on, then the spare carries it. A slot that is discarded breaks
the row. -/
def OLink.pairIn (l : OLink) (slot : Nat) (pair : Bool) : OLink :=
  match l.heard.find? fun a => a.op == 4 with
  | none => l
  | some a =>
    if slot < a.effect then l
    else
      let n := match l.rxMig with
        | some m => m.2.2
        | none => 0
      let n' := if pair then n + 1 else 0
      if 2 ≤ n' ∧ l.rxSpare < 9 then
        match l.rxMap[a.lane]? with
        | none => { l with rxMig := none, heard := l.heard.filter fun b => b.op != 4 }
        | some old => (({ l with
            rxMap := mapSwap l.rxMap old l.rxSpare, rxSpare := 15, rxMig := none, heard := l.heard.filter fun b => b.op != 4
            rxRole := (l.rxRole.set 1 old 6).set 1 l.rxSpare 1 } : OLink).modLane old fun x => { x with
              rxBack := .spare, rxPassed := false }).ask 1 a.lane
      else { l with rxMig := some (a.lane, a.effect, n') }

/-- R223 to R226, R238, R240, R244: what a decoded control word does. -/
def State.ctlIn (s : State) (k slot : Nat) (c : Ctl) : State :=
  let s1 := (s.creditIn k c.cr0.1 c.cr0.2).creditIn k c.cr1.1 c.cr1.2
  let s2 := match c.lost with
    | some n => s1.lostIn k n
    | none => s1
  let s3 := s2.modLink k fun l =>
    let a := match c.mig with
      | some n => ((l.stopLoop s.now).stopDisc).hear 4 n slot
      | none => l
    let b := if c.mapOp = 0 then a else a.hear c.mapOp c.mapLane slot
    if c.reqOp = 0 then b else b.stopLoop s.now
  if c.reqOp = 1 ∧ (s3.link k).mig.isNone then (s3.askedStage k c.reqIdx).migBegin k c.reqIdx else s3

/-- R222, R227: what the lanes of a slot showed. -/
def Lane.rxSlot (x : Lane) (r : LaneRx) : Lane :=
  { x with corr := (x.corr + r.corr) % 2 ^ 40, uncorr := min (x.uncorr + r.bad.toNat) 0xFFFFFF
           badRun := if r.bad then x.badRun + 1 else 0 }

/-- R230: a lane serves in the receive direction: its codeword came, its ring holds lock and its tone matches. -/
def OLink.serves (l : OLink) (rs : List LaneRx) (n : Nat) : Bool :=
  (l.lane n).rxState == 3 && (l.lane n).toneOk && rs.any fun r => r.lane == n && !r.bad && decide (r.off ≤ 7)

/-- What lane `n` received. -/
def laneOf (rs : List LaneRx) (n : Nat) : LaneRx := (rs.find? fun r => r.lane == n).getD { lane := n }

/-- R241: the codewords on the two lanes of a migrating slot are equal; ALIGN belongs to the lane. -/
def OLink.pairOk (l : OLink) (rs : List LaneRx) : Bool :=
  match l.heard.find? fun a => a.op == 4 with
  | none => false
  | some a =>
    match l.rxMap[a.lane]? with
    | none => false
    | some n => decide (l.rxSpare < 9) && l.serves rs n && l.serves rs l.rxSpare
        && (laneOf rs n).data == (laneOf rs l.rxSpare).data && (laneOf rs n).ctl / 2 == (laneOf rs l.rxSpare).ctl / 2

/-- Units of a packet after its header (R191). -/
def bodyUnits (header : List Byte) : Nat :=
  let w := leNat (header.take 8)
  let n := if bits w 36 33 = tyReadReq then 0 else bits w 53 40
  (n + 15) / 16

/-- R224: one 16-byte unit: the units of its packet still to come, whether it is fill, and a header that begins in it. -/
def unitIn (rest : Nat) (u : List Byte) : Nat × Bool × List Byte :=
  if rest ≠ 0 then (rest - 1, false, [])
  else if u.all (· == 0) then (0, true, [])
  else (bodyUnits u, false, u)

/-- The units of a chunk: those still to come, the number that is no fill, and the headers. -/
def chunkIn (rest : Nat) (bs : List Byte) : Nat × Nat × List Byte :=
  (List.range 4).foldl (fun (a : Nat × Nat × List Byte) i =>
    let u := unitIn a.1 ((bs.drop (16 * i)).take 16)
    (u.1, a.2.1 + (!u.2.1).toNat, a.2.2 ++ u.2.2)) (rest, 0, [])

/-- CV of chunk `j` (R224). -/
def cvOf (runs : List (Nat × Nat)) (j : Nat) : Nat := ((runs.filter fun r => decide (r.1 ≤ j)).getLast?.map (·.2)).getD 0

/-- R195, R214, R222 to R224: the chunks of a slot go into the input buffer. One of fill alone takes no credit; the credit of one whose group
failed its tag is due at once. The headers are those of the packets that begin. -/
def State.chunksIn (s : State) (k : Nat) (x : Frame) (c : Ctl) : State × List Byte :=
  let m := (s.link k).rxMap
  let data := m.flatMap fun n => let d := (laneOf x.lanes n).data
    d ++ List.replicate (640 - d.length) 0
  let r := (List.range (10 * m.length)).foldl (fun (a : State × List Byte) j =>
    let cv := cvOf c.runs j
    let u := chunkIn (((a.1.link k).rest).get 0 cv) ((data.drop (64 * j)).take 64)
    let t := a.1.modLink k fun l => { l with rest := l.rest.set 0 cv u.1 }
    if u.2.1 = 0 then (t, a.2)
    else if x.failed.contains j then (t.modLink k fun l => { l with freed := l.freed.mod 0 cv fun v => (v + 1) % 2048 }, a.2)
    else (t.modPort k fun p => { p with inbuf := p.inbuf.mod [] cv fun q => q ++ [u.2.1] }, a.2 ++ u.2.2)) (s, [])
  ((r.1.modLink k fun l => { l with rest := x.resync.foldl (fun t e => t.set 0 e.1 e.2) l.rest }), r.2)

end Sys2Proof.Machine
end

