-- ==== Sys2Proof/Machine/SyncCmds.lean ====
section
/-! DEFINITION. Commands of the sync unit and of fabric time (chapter 07). -/

namespace Sys2Proof.Machine

/-- Base of the sync-unit registers (R182). -/
def syncBase : Nat := 0x002001080000

/-- COUNTER_READ (R161). -/
def execCounterRead (r : SWho) (i : Nat) (s : State) : Step :=
  guarded (decide (i < 65536)) s <|
    match s.counterRead r i with
    | (.ok v, t) => done (.ok (leBytes v.toNat 8)) t
    | (.error c, t) => done (.refused c) t

/-- COUNTER_SET (R161, R163, R170). -/
def execCounterSet (r : SWho) (i : Nat) (v : Word) (s : State) : Step :=
  guarded (decide (i < 65536)) s (answer (s.counterSet r i v))

/-- COUNTER_ADD (R161 to R163, R171 to R174). -/
def execCounterAdd (r : SWho) (i : Nat) (v : Word) (s : State) : Step :=
  guarded (decide (i < 65536)) s (answer (s.counterAdd r i v))

/-- Who an entry written by a requester wakes or stands for (Table 07-2). -/
def SWho.waiter (r : SWho) : Waiter :=
  if r.remote then .remote r.srcId
  else if r.unit = 0x60 then .rake
  else if 0x40 ≤ r.unit ∧ r.unit < 0x60 then .core (r.unit - 0x40)
  else .part (r.part.getD 8)

/-- The tag of provisional work of a partition. -/
def State.provEpoch (s : State) (part : Option Nat) (prov : Bool) : Option Word :=
  if prov then part.map fun p => (s.part p).epoch + 1 else none

/-- WATCH_ARM: an entry with ARM = 1 (R164 to R166). -/
def execWatchArm (r : SWho) (slot : Nat) (w0 w1 w2 w3 : Word) (s : State) : Step :=
  guarded (decide (slot < 4096)) s
    (answer (s.watchWrite r slot (w0 ||| 4) w1 w2 w3 r.waiter (s.provEpoch r.part r.prov)))

/-- WATCH_CANCEL: an entry with ARM = 0 (R164, R165). -/
def execWatchCancel (r : SWho) (slot : Nat) (w0 w1 w2 w3 : Word) (s : State) : Step :=
  guarded (decide (slot < 4096)) s
    (answer (s.watchWrite r slot (w0 &&& ~~~4) w1 w2 w3 r.waiter (s.provEpoch r.part r.prov)))

/-- A register write of the sync unit refused (R182 to R184). REGION_VALID is 1 (Table 07-16) and REGION the counter group that the
write concerns, 0 where it concerns none (log entry 102). -/
def State.syncRegRefuse (s : State) (w : Who) (off : Nat) (c : Code) (grp : Nat := 0) : State :=
  let x := s.sync
  let a := syncBase + off
  let y := if x.err then x
    else { x with err := true, errCode := c, faultAddr := a
                  faultSrc := srcWord (if w.remote then w.srcId else s.fab.id) w.unit 1 w.remote false 0 (some grp) }
  { s with sync := y }.log { code := c, unit := w.unit, srcId := if w.remote then some w.srcId else none
                             part := s.partOfUnit w.unit, addr := some a, remote := w.remote }

/-- R182: a register that only the dispatch processor writes. -/
def State.syncWrite (s : State) (w : Who) (off : Nat) (x : Except Code Sync) (grp : Nat := 0) : Step :=
  if w.remote ∨ w.unit ≠ unitDispatch then done (.refused Err.watchOwner) (s.syncRegRefuse w off Err.watchOwner grp)
  else match x with
    | .error c => done (.refused c) (s.syncRegRefuse w off c grp)
    | .ok y => served { s with sync := y }

/-- SYNC_GROUP_WRITE (R160, Table 07-20). -/
def execSyncGroupWrite (w : Who) (g : Nat) (v : BitVec 32) (s : State) : Step :=
  guarded (decide (g < 256)) s
    (s.syncWrite w (0x1000 + 4 * g) (.ok { s.sync with groups := s.sync.groups.set {} g (groupOf (v.toNat % 256)) }) g)

/-- A barrier entry for partition `p` (R183). -/
def Sync.barrierPut (x : Sync) (p b v : Nat) : Except Code Sync :=
  if barrierOk x.groups (x.barriers.drop b) p v then
    .ok { x with barriers := x.barriers.set {} b (barrierOfWord (v % 2 ^ 41)) }
  else .error Err.barrierForm

/-- BARRIER_WRITE (R170, R183). -/
def execBarrierWrite (w : Who) (p b : Nat) (v : Word) (s : State) : Step :=
  guarded (decide (p < 8 ∧ b < 1024)) s (s.syncWrite w (0x2000 + 8 * b) (s.sync.barrierPut p b v.toNat) (v.toNat % 2 ^ 16 / 256))

/-- A watch split (R183). -/
def Sync.splitPut (x : Sync) (p v : Nat) : Except Code Sync :=
  if splitOk x.splits p v then .ok { x with splits := x.splits.set {} p (splitOf (v % 2 ^ 24)) }
  else .error Err.watchOwner

/-- WATCH_SPLIT_WRITE (R183). -/
def execWatchSplitWrite (w : Who) (p : Nat) (v : BitVec 32) (s : State) : Step :=
  guarded (decide (p < 8)) s (s.syncWrite w (0x4000 + 4 * p) (s.sync.splitPut p v.toNat))

/-- FT_CTRL_WRITE (R176 to R178); the depth of a new follower is open (log entry 21). -/
def execFtCtrlWrite (w : Who) (v : BitVec 32) (s : State) : Step :=
  let f := s.free
  f.2.syncWrite w 0x20 (.ok (s.sync.ftWrite (v.toNat % 2 ^ 15) f.1.toNat))

/-- FT_TICK: one nanosecond of the fabric clock; watches on fabric time are tested (R166, R175). -/
def execFtTick (s : State) : Step :=
  let x := s.sync.tick
  let r := Sync.follow x.testTime
  served ({ s with sync := r.1 }.deliver r.2)

/-- A sync packet of the endpoint (Table 07-5). -/
def timePkt (self dst op : Nat) (a b : Word) (num : Nat) : Pkt where
  dst := dst
  src := self
  cls := 0
  ty := tySync
  len := 32
  payload := [BitVec.ofNat 8 op, 0] ++ leBytes 0 6 ++ leBytes a.toNat 8 ++ leBytes b.toNat 8 ++ leBytes num 2
    ++ List.replicate 6 0

/-- R178: the link from which time is taken: the parent link when it is up, else the one in use. -/
def State.timeLink (s : State) : Nat := if s.up s.sync.ctrl.parentLink then s.sync.ctrl.parentLink else s.sync.ftLink

/-- TIME_EXCHANGE_TIMER: the child sends TIME_REQ to the module at the other end of the link in use (R176). -/
def execTimeExchangeTimer (s : State) : Step :=
  let x := s.sync
  guarded (x.ctrl.enable && !x.ctrl.root && s.up s.timeLink) s <|
    let num := x.exchNum % 2 ^ 16
    let t := { s with sync := { x with
      ftLink := s.timeLink, exch := some { num := num, t1 := x.ft }, exchNum := (num + 1) % 2 ^ 16 } }
    served (t.request (timePkt s.fab.id (s.link s.timeLink).peerId 0x10 x.ft 0 num) .none)

/-- Fields of a sync payload. -/
def Pkt.f (x : Pkt) (a n : Nat) : Nat := leNat ((x.payload.drop a).take n)

/-- R169: a payload is as Table 07-5 gives it for its OP. -/
def syncForm (x : Pkt) : Bool :=
  let z (a n : Nat) : Bool := x.f a n == 0
  x.len == 32 && x.payload.length == 32 && z 27 5 &&
    (match x.f 0 1 with
      | 0x01 => z 1 1 && z 16 8 && (x.f 24 2 == 0xFFFF || decide (x.f 24 2 < 4096)) && decide (x.f 26 1 ≤ 3)
      | 0x02 => decide (x.f 1 1 ≤ 2) && z 26 1
      | 0x10 => z 1 7 && z 16 8 && z 26 1
      | 0x11 => z 1 7 && z 26 1
      | _ => false)

/-- The source of a sync packet as a requester (R162). -/
def Pkt.who (x : Pkt) : SWho := { unit := 0x68, remote := true, srcId := x.src, prov := x.prov, epochLo := x.epochLo }

/-- A sync packet of operation `op` at this module; one of another operation is another row's. -/
def State.syncPkt (s : State) (op : Nat) (x : Pkt) (f : State → Option Code × State) : Step :=
  if x.f 0 1 ≠ op ∧ syncForm x then idle s
  else s.receive tySync x fun t =>
    if !syncForm x then
      (.refused Err.syncForm, t.syncRefuse x.who 2 (x.f 2 2) Err.syncForm)
    else match f t with
      | (none, u) => (.ok, u)
      | (some c, u) => (.refused c, u)

/-- SYNC_ADD (R169). -/
def execSyncAdd (x : Pkt) (s : State) : Step :=
  s.syncPkt 0x01 x fun t => t.counterAdd x.who (x.f 2 2) (BitVec.ofNat 64 (x.f 4 4))

/-- R169: a remote watch takes the lowest free remote slot. -/
def State.watchRemote (s : State) (x : Pkt) : Option Code × State :=
  let i := x.f 2 2
  match s.sync.freeSlot 3808 256 with
  | none => (some Err.watchFull, s.syncRefuse x.who 0 i Err.watchFull)
  | some slot =>
    let view := x.prov && (s.sync.group i).epoch
    let w0 := x.f 1 1 + 4 + (if view then 8 else 0) + 2 * 16 + i * 64
    let w3 := x.src + x.f 24 2 * 2 ^ 16 + x.f 4 4 * 2 ^ 32
    s.watchWrite x.who slot (BitVec.ofNat 64 w0) (BitVec.ofNat 64 (x.f 8 8)) (BitVec.ofNat 64 (x.f 16 8))
      (BitVec.ofNat 64 w3) (.remote x.src) (s.provEpoch (some (s.sync.group i).part) view)

/-- WATCH_REQ (R164, R169). -/
def execWatchReq (x : Pkt) (s : State) : Step := s.syncPkt 0x02 x fun t => t.watchRemote x

/-- TIME_REQ: the parent answers with TIME_RESP (R176). -/
def execTimeReq (x : Pkt) (s : State) : Step :=
  s.syncPkt 0x10 x fun t =>
    (none, t.request (timePkt t.fab.id x.src 0x11 (BitVec.ofNat 64 (x.f 8 8)) t.sync.ft (x.f 24 2)) .none)

/-- R176, R177, R179: the child computes offset and corrects its time; t3 is the departure stamp of the header. -/
def State.timeResp (s : State) (x : Pkt) : State :=
  match s.sync.exch with
  | none => s
  | some e =>
    if e.num = x.f 24 2 ∧ e.t1 = BitVec.ofNat 64 (x.f 8 8) then
      let t2 := BitVec.ofNat 64 (x.f 16 8)
      let t4 := s.sync.ft
      let t3 := widen x.ftime t4
      let f := s.free
      { f.2 with sync := s.sync.exchange (ftOffsetOf e.t1 t2 t3 t4) (ftDelayOf e.t1 t2 t3 t4) (ftRateOf f.1) }
    else s

/-- TIME_RESP (R176, R177). -/
def execTimeResp (x : Pkt) (s : State) : Step := s.syncPkt 0x11 x fun t => (none, t.timeResp x)

end Sys2Proof.Machine
end

