-- ==== Sys2Proof/Machine/OptCmds.lean ====
section
/-! DEFINITION. Commands of the light engines and links (chapter 09). -/

namespace Sys2Proof.Machine

/-- FRAME_SLOT_SEND: the chunks and the control word of one slot of link `k`; the answer holds the messages of its codewords (R193 to
R195, R222 to R227). A change announced for this slot comes first (R224). -/
def execFrameSlotSend (k : Nat) (s : State) : Step :=
  guarded (decide (k < 36) && s.up k && (s.link k).ann.all fun a => decide ((s.link k).slot < a.effect)) s <|
    let l := s.link k
    let m := l.txMap.length
    let r := Port.fillSlot s.fab s.sync.ft (rmax m) (10 * m) (s.port k) {}
    let n := sumOf (r.2.runs.map (·.2))
    let t := (s.modPort k fun _ => r.1).modLink k fun y => { y with
      slot := y.slot + 1, runs := (y.slot, r.2.runs.reverse, false) :: y.runs.take 127
      reqs := sayOnce (fun q => (q.1, q.2.1, q.2.2 - 1)) (fun q => q.2.2 == 0) y.reqs
      lost := sayOnce (fun q => (q.1, q.2 - 1)) (fun q => q.2 == 0) y.lost
      nextReport := (y.nextReport + 2) % 8
      groupsTx := if s.encActive k then y.groupsTx + (n + 15) / 16 else y.groupsTx }
    let bs := if s.encActive k then
      Config.linkSeal (BitVec.ofNat 256 ((s.mgmt.keys.get none (2 * k)).getD 0)) l.groupsTx r.2.sent.bytes else r.2.sent.bytes
    done (.ok (l.messages bs (l.control r.2.runs).word)) (r.2.sent.left.foldl (fun u e => u.unitLeft e.1 e.2) t)

/-- R227, R239: lanes found faulty in a slot. -/
def State.slotFaults (s : State) (k : Nat) (rs : List LaneRx) : State :=
  rs.foldl (fun t r =>
    let x := (t.link k).lane r.lane
    if (64 ≤ x.badRun ∨ 7 < r.off) ∧ x.rxState = 3 then t.rxFault k r.lane false false else t) s

/-- FRAME_SLOT_RECEIVE: the answer holds the headers of the packets that begin in the slot (R214, R222 to R227, R230, R239, R241,
R244). -/
def execFrameSlotReceive (k : Nat) (x : Frame) (s0 : State) : Step :=
  guarded (decide (k < 36) && (s0.link k).trained
      && (s0.link k).heard.all fun a => decide (a.op = 4 ∨ x.slot < a.effect)) s0 <|
    let s := (s0.modLink k fun l => { l with peerEnc := x.enc }).touch k s0
    if !s.up k then served s
    else
      let rs := x.lanes.filter fun r => decide (r.lane < 9)
      let t := s.modLink k fun l => { rs.foldl (fun y r => y.modLane r.lane fun z => z.rxSlot r) l with rxSlot := x.slot + 1 }
      let l := s.link k
      if l.rxMap.all fun n => l.serves rs n then
        let c := ctlOf (wordOfLanes (l.rxMap.map fun n => (laneOf rs n).ctl))
        let u := if x.failed.isEmpty then t else t.countDrop
        let v := (u.ctlIn k x.slot c).chunksIn k x c
        let w := v.1.modLink k fun y => y.pairIn x.slot (y.pairOk rs)
        done (.ok v.2) ((w.slotFaults k rs).touch k s0)
      else
        let u := t.modLink k fun y => { y.pairIn x.slot false with
          lost := y.lost ++ [(x.slot % 256, 3)], rest := x.resync.foldl (fun r e => r.set 0 e.1 e.2) y.rest }
        served ((u.slotFaults k rs).touch k s0)

/-- R224: the announcement of a kind that has taken effect. -/
def OLink.effective (l : OLink) (rx : Bool) (op : Nat) : Option Announce :=
  if rx then l.heard.find? fun a => a.op == op && decide (a.effect ≤ l.rxSlot)
  else l.ann.find? fun a => a.op == op && decide (a.effect ≤ l.slot)

/-- A receive lane that is to return as the spare does so once its resweep has passed and the direction has none (R239). -/
def OLink.rxReturn (l : OLink) (lane : Nat) : OLink :=
  let x := l.lane lane
  if 9 ≤ l.rxSpare ∧ x.rxBack = .spare ∧ x.rxPassed ∧ x.rxState = 3 ∧ !l.rxMap.contains lane then
    { l.modLane lane (fun y => { y with rxBack := .none }) with rxSpare := lane, rxRole := l.rxRole.set 1 lane 2 }
  else l

/-- R224: a change of the map that has been announced takes effect. A SWAP of the lane of a migration ends that migration (R250). -/
def State.mapChange (s : State) (k : Nat) (rx : Bool) (op : Nat) : Step :=
  match (s.link k).effective rx op with
  | none => idle s
  | some a =>
    let t := s.modLink k fun l =>
      let y := l.change rx op a.lane
      if rx then { y.rxReturn a.lane with heard := y.heard.filter fun b => b != a }
      else
        let z := if op = 3 && y.mig.any fun m => m.lane == a.lane then y.migEnd s.now else y
        { z with ann := z.ann.filter fun b => b != a }
    served (t.touch k s)

/-- LEAVE (R224). -/
def execLeave (k : Nat) (rx : Bool) (s : State) : Step := guarded (decide (k < 36)) s (s.mapChange k rx 1)

/-- JOIN (R224). -/
def execJoin (k : Nat) (rx : Bool) (s : State) : Step := guarded (decide (k < 36)) s (s.mapChange k rx 2)

/-- SWAP (R224). -/
def execSwap (k : Nat) (rx : Bool) (s : State) : Step := guarded (decide (k < 36)) s (s.mapChange k rx 3)

/-- MIGRATE: from slot E the data slot goes on two lanes (R241). -/
def execMigrate (k : Nat) (s : State) : Step :=
  let l := s.link k
  match l.effective false 4, l.mig with
  | some a, some _ =>
    served (s.modLink k fun y => { y with
      ann := y.ann.filter fun b => b != a, mig := y.mig.map fun m => { m with effect := a.effect, begun := s.now } })
  | _, _ => idle s

/-- MIGRATION_CONFIRM (R241). -/
def execMigrationConfirm (k slot : Nat) (s : State) : Step :=
  let l := s.link k
  match l.mig with
  | none => idle s
  | some m =>
    guarded (m.slot == slot && !m.confirmed && l.duplicates) s
      (served (s.modLink k fun y => { y with mig := some { m with confirmed := true, stopAt := up8 (y.slot + 3) } }))

/-- MIGRATION_BREAK: the old lane stops (R241). -/
def execMigrationBreak (k : Nat) (s : State) : Step :=
  let l := s.link k
  match l.mig with
  | none => idle s
  | some m =>
    guarded (m.confirmed && decide (m.stopAt ≤ l.slot)) s <|
      let t := s.modLink k fun y =>
        let z := { y with
          txMap := mapSwap y.txMap m.lane y.txSpare, txRole := (y.txRole.set 1 m.lane 6).set 1 y.txSpare 1
          txSpare := 15, migTries := 0, migRetry := none }
        (z.modLane m.lane fun x => { x with txBack := .spare, txPassed := false, exhausted := false }).migEnd s.now
      served ((t.optLog Err.fadeMigrated k m.lane false).touch k s)

/-- MIGRATION_TIMEOUT: no confirmation within 10 µs (R241). -/
def execMigrationTimeout (k : Nat) (s : State) : Step :=
  let l := s.link k
  match l.mig with
  | none => idle s
  | some m =>
    guarded (!m.confirmed && l.duplicates && decide (m.begun + 10000 ≤ s.now)) s <|
      let third := decide (3 ≤ l.migTries + 1)
      let t := s.modLink k fun y => { (y.modLane m.lane fun x => { x with gaveUp := x.gaveUp || third }).migEnd s.now with
        migTries := if third then 0 else y.migTries + 1, migRetry := if third then none else some (s.now + 100000) }
      served (if third then t.optLog Err.migrationFailed k m.lane false else t)

/-- MIGRATION_RETRY: 100 µs after a failed attempt (R241). -/
def execMigrationRetry (k : Nat) (s : State) : Step :=
  let l := s.link k
  match l.migRetry with
  | none => idle s
  | some t =>
    guarded (decide (t ≤ s.now) && l.mig.isNone) s
      (served ((s.modLink k fun y => { y with migRetry := none }).migBegin k l.migSlot))

/-- RELEASE: REQ_OP 2 from the peer, for a faulty lane (R239) or, with `sweep`, for one whose receive ring is to be swept (R234, log
entry 45). A lane that carries no data slot has nothing to leave. -/
def execRelease (k : Nat) (x : LaneAsk) (s : State) : Step :=
  let lane := x.lane
  guarded (decide (k < 36 ∧ lane < 9)) s <|
    let t := if (s.link k).txMap.contains lane then s.modLane k lane fun x => { x with askedOut := some s.now } else s
    served (if x.sweep then t.leaveFor k lane false else t.leaveOrSwap k lane)

/-- RESWEEP_TX: REQ_OP 3 from the peer (R239). -/
def execResweepTx (k lane : Nat) (s : State) : Step :=
  guarded (decide (k < 36 ∧ lane < 9)) s
    (served (s.modLink k fun l => (l.stopLoop s.now).modLane lane fun x => { x with txSweep := .fault }))

/-- R235: a heater code within `pct` per cent of an end of its range. -/
def nearEnd (pct heater : Nat) : Bool := decide (100 * heater ≤ pct * 4095) || decide (100 * (4095 - heater) ≤ pct * 4095)

/-- No lane of a direction is out for a resweep that its loop asked for, and its map can spare one (R235, R236). -/
def OLink.canSpare (l : OLink) (rx : Bool) (k : Nat) : Bool :=
  decide (k < l.staying rx) && (List.range 9).all fun n =>
    let w := if rx then (l.lane n).rxSweep else (l.lane n).txSweep
    w != .due && w != .forced

/-- R235, R236: what a ring that is due does. One whose lane carries no data resweeps at any time, without a map change (R234). -/
def State.dueRing (s : State) (k lane : Nat) (rx : Bool) (forced : Bool) : State :=
  let l := s.link k
  let x := l.lane lane
  let inMap := (if rx then l.rxMap else l.txMap).contains lane
  let busy := (if rx then x.rxSweep else x.txSweep) != .none
  let go (c : Sweep) (t : State) : State :=
    (t.modLane k lane fun y => if rx then { y with rxSweep := c } else { y with txSweep := c }).leaveFor k lane rx
  let told := if rx then x.rxDeferred else x.txDeferred
  if busy then s
  else if !inMap then (if forced then go .forced (s.optLog Err.calForced k lane rx) else s)
  else if forced then (if l.canSpare rx s.opt.minK then go .forced (s.optLog Err.calForced k lane rx) else s)
  else if s.opt.gaps then
    (if told then s
    else (s.modLane k lane fun y => if rx then { y with rxDeferred := true } else { y with txDeferred := true }).optLog Err.calDeferred k lane rx)
  else if l.mig.isNone && l.canSpare rx s.opt.minK then go .due s
  else s

/-- LOCK_LOOP_TICK: the heater code that the loop chose and the tone heard (R231, R235, R239). -/
def execLockLoopTick (k lane : Nat) (rx : Bool) (heater : Nat) (tone : Option Nat) (s : State) : Step :=
  let x := (s.link k).lane lane
  let st := if rx then x.rxState else x.txState
  guarded (decide (k < 36 ∧ lane < 9 ∧ heater < 4096) && st == 3) s <|
    let swept := if rx then x.rxSwept else x.txSwept
    let due := nearEnd 8 heater || decide (swept + 24 * nsHour ≤ s.now)
    let t := s.modLane k lane fun y =>
      if rx then { y with rxHeater := heater, toneOk := tone == some lane, rxDue := due }
      else { y with txHeater := heater, txDue := due }
    let u := if rx ∧ tone ≠ some lane then t.rxFault k lane true tone.isNone
      else if due then t.dueRing k lane rx (nearEnd 2 heater) else t
    served (u.touch k s)

/-- Links of engine `e`. -/
def linksOf (e : Nat) : List Nat := (List.range 6).map (6 * e + ·)

/-- R242: crossings of a stage by wavelength `n` on the links of an engine within 1 ms. -/
def crossings (t : Tab (Option Nat)) (n now : Nat) : Nat :=
  ((List.range 6).filter fun i => match t.get none (16 * n + i) with
    | some c => decide (now < c + 1000000)
    | none => false).length

/-- R240, R242: a wavelength whose fade is judged at the source takes the stage on all six links. -/
def State.sourceStage (s : State) (e n : Nat) : State :=
  let x := s.opt.engines.get {} e
  let st := if 4 ≤ crossings x.cross3 n s.now then 3 else if 4 ≤ crossings x.cross2 n s.now then 2 else 0
  let t := if st = 0 then s else (linksOf e).foldl (fun u k =>
    let x := (u.link k).lane n
    if x.txState = 0 then u
    else (u.modLane k n fun y => { y with stage := max y.stage st }).fadeUp k n x.stage (max x.stage st)) s
  let quiet := (linksOf e).all fun k => ((t.link k).lane n).stage == 0
  { t with opt := { t.opt with engines := t.opt.engines.mod {} e fun y =>
      { y with stage := y.stage.set 0 n (if quiet then 0 else max (y.stage.get 0 n) st) } } }

/-- R240: one lane in a window, with the crossings that it makes. A ring that is OFF carries nothing (R221). -/
def State.fadeLane (s : State) (e : Nat) (r : Nat × Nat × Int) : State :=
  let k := r.1
  let n := r.2.1
  if ((s.link k).lane n).txState = 0 then s else
  let old := ((s.link k).lane n).stage
  let y := ((s.link k).lane n).fade r.2.2 s.now
  let key := 16 * n + (k - 6 * e)
  let t := s.modLane k n fun _ => y
  let u : State := { t with opt := { t.opt with engines := t.opt.engines.mod {} e fun x => { x with
    cross2 := if old < 2 ∧ 2 ≤ y.stage then x.cross2.set none key (some s.now) else x.cross2
    cross3 := if old < 3 ∧ 3 ≤ y.stage then x.cross3.set none key (some s.now) else x.cross3 } } }
  u.fadeUp k n old y.stage

/-- Mean of λn over the six links (Table 09-12). -/
def State.relMean (s : State) (e n : Nat) : Int := ((linksOf e).foldl (fun a k => a + ((s.link k).lane n).txRel) (0 : Int)) / 6

/-- R241 to R243: after the stages of a window: a migration begins, unless one waits for its retry; lanes at stage 2 without a spare report
it; lanes at stage 3 leave; lanes that have recovered return. -/
def State.fadeActs (s : State) (k : Nat) : State :=
  let t := if (s.link k).migRetry.isSome then s else match (s.link k).fading with
    | some n => (match slotOfLane (s.link k).txMap n with
      | some i => s.migBegin k i
      | none => s)
    | none => s
  (List.range 9).foldl (fun u n =>
    let x := (u.link k).lane n
    let v := if !(u.link k).txMap.contains n then u
      else if x.stage = 2 ∧ !(u.link k).txSpareOk then u.exhaust k n
      else if 3 ≤ x.stage ∧ x.txState ≠ 0 then u.leaveOrSwap k n
      else u
    v.laneBack k n) t

/-- FADE_WINDOW: relative powers of lanes of the links of engine `e`, as (link, lane, dB × 256) (R240 to R243). -/
def execFadeWindow (e : Nat) (rel : List (Nat × Nat × Int)) (s : State) : Step :=
  guarded (decide (e < 6) && s.domainOn (48 + e) && (s.opt.engines.get {} e).calDone
      && rel.all fun r => decide (6 * e ≤ r.1 ∧ r.1 < 6 * e + 6 ∧ r.2.1 < 9)) s <|
    let t := rel.foldl (fun u r => u.fadeLane e r) s
    let t1 := (List.range 9).foldl (fun u n => u.sourceStage e n) t
    let t2 := (linksOf e).foldl (fun u k => u.fadeActs k) t1
    let t3 : State := { t2 with opt := { t2.opt with engines := t2.opt.engines.mod {} e fun x => { x with
      rel := (List.range 9).foldl (fun y n => y.set 0 n (t2.relMean e n)) x.rel } } }
    served ((linksOf e).foldl (fun u k => u.touch k s) t3)

/-- Floor of the decimal logarithm of a positive number below 10 ^ 8192. -/
def log10 (n : Nat) : Nat :=
  ((List.range 13).reverse.foldl (fun (a : Nat × Nat) i =>
    if 10 ^ 2 ^ i ≤ a.1 then (a.1 / 10 ^ 2 ^ i, a.2 + 2 ^ i) else a) (n, 0)).2

/-- BER_EST of `errors` in `total` bits: round(−256 × log₁₀ BER), 0xFFFF when no error was seen (Table 09-14). It is half of the logarithm
of (total ÷ errors) ^ 512, rounded. -/
def berEst (errors total : Nat) : Nat := if errors = 0 then 0xFFFF else (log10 (total ^ 512 / errors ^ 512) + 1) / 2

/-- BER_WINDOW: errors of receive lanes over 1 ms, as (lane, errors, bits). A data lane above 1e-5 asks for a migration (R244). -/
def execBerWindow (k : Nat) (est : List (Nat × Nat × Nat)) (s : State) : Step :=
  guarded (decide (k < 36) && (s.link k).trained && est.all fun r => decide (r.1 < 9 ∧ 0 < r.2.2 ∧ r.2.1 ≤ r.2.2 ∧ r.2.2 < 2 ^ 40)) s
    (served (s.modLink k fun l => est.foldl (fun y r =>
      let z := y.modLane r.1 fun x => { x with ber := berEst r.2.1 r.2.2 }
      match slotOfLane z.rxMap r.1 with
      | some i => if r.2.2 < 100000 * r.2.1 then (z.stopLoop s.now).ask 1 i else z
      | none => z) l))

/-- R250: a migration of either direction is under way on the link. -/
def OLink.migrating (l : OLink) : Bool := l.mig.isSome || l.heard.any fun a => a.op == 4

/-- RESWEEP_START: a ring that is to resweep and carries no data (R233 to R235, R239, R243). -/
def execResweepStart (k lane : Nat) (rx : Bool) (s : State) : Step :=
  let l := s.link k
  let x := l.lane lane
  let st := if rx then x.rxState else x.txState
  let sw := if rx then x.rxSweep else x.txSweep
  let due := if rx then x.rxDue else x.txDue
  let out := (if rx then l.rxRole else l.txRole).get 1 lane == 6
  guarded (decide (k < 36 ∧ lane < 9) && st != 0 && st != 1 && st != 2 && l.trained && !l.migrating && !(if rx then l.rxMap else l.txMap).contains lane
      && (sw != .none || due || out)) s
    (served (s.modLane k lane fun y =>
      if rx then { y with rxState := 1, rxSweep := if sw = .none then .due else sw }
      else { y with txState := 1, txSweep := if sw = .none then .due else sw }))

/-- R233: the resonance nearest to heater code `cal`, among those found as (heater code, tone heard); of two as near, the lower. A receive ring
picks only one whose tone matches. -/
def nearestTo (cal : Nat) (found : List (Nat × Option Nat)) (ok : Option Nat → Bool) : Option Nat :=
  let dist (h : Nat) : Nat := if h ≤ cal then cal - h else h - cal
  ((found.filter fun f => ok f.2 && decide (f.1 < 4096)).map (·.1)).foldl (fun best h => match best with
    | none => some h
    | some b => if dist h < dist b ∨ (dist h = dist b ∧ h < b) then some h else some b) none

/-- RESWEEP_END: the sweep ends: the ring acquires the resonance that it picks among those found, or goes to FAULT; once it has acquired, the
resweep ends with lock (R233, R234, R239). -/
def execResweepEnd (k lane : Nat) (rx : Bool) (found : List (Nat × Option Nat)) (s : State) : Step :=
  let x := (s.link k).lane lane
  let st := if rx then x.rxState else x.txState
  guarded (decide (k < 36 ∧ lane < 9) && (st == 1 || st == 2) && (s.link k).trained) s <|
    if st = 2 then
      let t := s.modLane k lane fun y =>
        if rx then { y with rxState := 3, rxSweep := .none, rxSwept := s.now, rxPassed := true, rxDue := false, toneOk := true
                            rxDeferred := false }
        else { y with txState := 3, txSweep := .none, txSwept := s.now, txPassed := true, txDue := false, txDeferred := false }
      served ((if rx then t.modLink k fun l => l.rxReturn lane else t.laneBack k lane).touch k s)
    else match nearestTo (if rx then x.rxCal else x.txCal) found (fun t => !rx || t == some lane) with
      | some h => served (s.modLane k lane fun y => if rx then { y with rxState := 2, rxHeater := h } else { y with txState := 2, txHeater := h })
      | none =>
        let t := s.modLane k lane fun y =>
          if rx then { y with rxState := 4, rxSweep := .fault } else { y with txState := 4, txSweep := .fault }
        served (t.optLog Err.sweepFailed k lane rx)

/-- GAP_ROUND: a round of resweeps within an announced gap: at most 4 data lanes a direction, never fewer than MIN_LANES left
(R237). -/
def execGapRound (k : Nat) (s : State) : Step :=
  let l := s.link k
  match l.gaps.filter fun g => decide (g.rounds ≠ 0 ∧ g.start + 2500000 ≤ g.stop) with
  | [] => idle s
  | g :: r =>
    guarded (decide (k < 36) && decide (g.start ≤ s.sync.ft.toNat) && !l.migrating) s <|
      let pick (rx : Bool) : List Nat :=
        ((if rx then l.rxMap else l.txMap).filter fun n =>
          (if rx then (l.lane n).rxDue else (l.lane n).txDue) && !l.leaving rx n).take (min 4 (l.staying rx - s.opt.minK))
      let go (rx : Bool) (t : State) (n : Nat) : State :=
        (t.modLane k n fun y => if rx then { y with rxSweep := .due } else { y with txSweep := .due }).leaveFor k n rx
      let t := (pick true).foldl (go true) ((pick false).foldl (go false) s)
      served (t.modLink k fun y => { y with gaps := { g with start := g.start + 2500000, rounds := g.rounds - 1 } :: r })

/-- Payload of CAL_REQ and CAL_ACK (Table 15-7). -/
def calBytes (link peer flag : Nat) (start : Word) : List Byte :=
  leBytes link 1 ++ leBytes peer 1 ++ leBytes flag 2 ++ leBytes start.toNat 8 ++ leBytes 200000 4

/-- An MGMT packet of this module. -/
def mgmtPkt (self dst sub : Nat) (bs : List Byte) : Pkt where
  dst := dst
  src := self
  cls := 0
  ty := tyMgmt
  len := bs.length
  aux := sub
  payload := bs

/-- R238: a loopback may be arranged on link `k`. -/
def State.loopFree (s : State) (k : Nat) : Bool :=
  let l := s.link k
  s.up k && l.loop.isNone && l.mig.isNone && l.disc.isNone && l.txSpareOk && l.rxSpareOk

/-- R238, R374: the peer is asked for a loopback. -/
def State.loopAsk (s : State) (k : Nat) : State :=
  let l := s.link k
  (s.modLink k fun y => { y with loopAsked := some s.now, loopRetry := none, loopLast := s.now }).request
    (mgmtPkt s.fab.id l.peerId 1 (calBytes k l.peerLink 0 s.sync.ft)) .none

/-- CAL_LOOPBACK_TIMER (R238). -/
def execCalLoopbackTimer (k : Nat) (s : State) : Step :=
  let l := s.link k
  guarded (decide (k < 36) && s.opt.spareCal != 0 && decide (l.loopLast + 1000000000 * s.opt.spareCal ≤ s.now)
      && s.loopFree k && l.loopAsked.isNone) s (served (s.loopAsk k))

/-- LOOPBACK_RETRY (R238). -/
def execLoopbackRetry (k : Nat) (s : State) : Step :=
  match (s.link k).loopRetry with
  | none => idle s
  | some t => guarded (decide (k < 36 ∧ t ≤ s.now) && s.loopFree k) s (served (s.loopAsk k))

/-- Code MGMT_FORM. -/
def Err.mgmtForm : Code := 0x0D0D

/-- R374: an MGMT payload of a calibration packet has its form. -/
def calForm (x : Pkt) : Bool :=
  x.len == 16 && x.payload.length == 16 && x.cls == 0 && decide (x.f 0 1 < 36) && decide (x.f 1 1 < 36) && x.f 12 4 == 200000
    && (if x.aux = 1 then x.f 2 2 == 0 else decide (x.f 2 2 < 2))

/-- An MGMT packet of a subtype; another subtype is another row's (R374). -/
def State.mgmtIn (s : State) (sub : Nat) (x : Pkt) (form : Pkt → Bool) (f : State → State) : Step :=
  if x.aux ≠ sub then idle s
  else s.receive tyMgmt x fun t =>
    if form x then (.ok, f t)
    else (.refused Err.mgmtForm, t.log { code := Err.mgmtForm, unit := unitHearth, srcId := some x.src, remote := true })

/-- Spares that take part in a loopback. -/
def OLink.loopOn (l : OLink) (now : Nat) (own : Bool) : OLink :=
  { l with loop := some now, loopOwn := own, loopAsked := none, loopLast := now
           txRole := l.txRole.set 1 l.txSpare 4, rxRole := l.rxRole.set 1 l.rxSpare 4 }

/-- CAL_REQ: accepted where the spares are free (R238, R374). The packet's PEER_LINK is the link here. -/
def execCalReq (x : Pkt) (s : State) : Step :=
  s.mgmtIn 1 x calForm fun t =>
    let k := x.f 1 1
    let ok := t.loopFree k
    let u := if ok then t.modLink k fun l => l.loopOn t.now false else t
    u.request (mgmtPkt u.fab.id x.src 2 (calBytes k (x.f 0 1) ok.toNat (BitVec.ofNat 64 (x.f 4 8)))) .none

/-- CAL_ACK: the loopback that was asked for begins, or not (R238, R374). -/
def execCalAck (x : Pkt) (s : State) : Step :=
  s.mgmtIn 2 x calForm fun t =>
    let k := x.f 1 1
    t.modLink k fun l =>
      if l.loopAsked.isNone then l
      else if bit (x.f 2 2) 0 && t.loopFree k then l.loopOn t.now true
      else { l with loopAsked := none, loopRetry := some (t.now + 10000000000) }

/-- CAL_LOOPBACK_END (R238). -/
def execCalLoopbackEnd (k : Nat) (s : State) : Step :=
  match (s.link k).loop with
  | none => idle s
  | some t =>
    guarded (decide (k < 36 ∧ t + 200000 ≤ s.now)) s
      (served (s.modLink k fun l => { l with
        loop := none, loopLast := s.now, txRole := l.txRole.set 1 l.txSpare 2, rxRole := l.rxRole.set 1 l.rxSpare 2 }))

/-- R246, R253: the peer of a link held against the plan. -/
def State.peerCheck (s : State) (k : Nat) : State :=
  let e := s.rake.links.get {} k
  let l := s.link k
  if !s.rake.valid then s.modLink k fun y => { y with mismatch := false }
  else if !e.used then s.modLink k fun y => { y with trained := false, mismatch := false }
  else if l.peerId = e.peer ∧ l.peerLink = e.link then s.modLink k fun y => { y with mismatch := false }
  else
    let t := s.modLink k fun y => { y with mismatch := true }
    if l.mismatch then t else t.optLog Err.peerMismatch k 0 true

/-- R246, R253: discovery for a plan on link `k`: on the spares of a link that is up, those that are usable, or on λ0 of one that is held. A
receive direction without a usable spare is checked at once, against the identity from its last discovery. -/
def State.discover (s : State) (k : Nat) : State :=
  let l := s.link k
  if s.up k then
    let t := s.modLink k fun y => y.discOn s.now (if l.txSpareOk then some l.txSpare else none) (if l.rxSpareOk then some l.rxSpare else none)
    if l.rxSpareOk then t else (t.peerCheck k).touch k s
  else if l.trained then s.modLink k fun y => y.discOn s.now (some 0) (some 0)
  else s

/-- DISCOVERY_DONE: what a discovery that runs has found; on the spares it takes 200 µs. In start-up it is the row before loopback (R246, R247,
R253). -/
def execDiscoveryDone (k peer link : Nat) (s : State) : Step :=
  let l := s.link k
  match l.disc with
  | none => idle s
  | some d =>
    guarded (decide (k < 36 ∧ peer < 2 ^ 14 ∧ link < 36) && (!s.up k || decide (d.since + 200000 ≤ s.now))) s <|
      let t := s.modLink k fun y => { y.discOver with
        peerId := if d.rx.isSome then peer else y.peerId, peerLink := if d.rx.isSome then link else y.peerLink
        cal := if y.cal = 3 then 4 else y.cal }
      served (if d.rx.isSome then (t.peerCheck k).touch k s else t)

/-- DISCOVERY_RETRY (R253). -/
def execDiscoveryRetry (k : Nat) (s : State) : Step :=
  let l := s.link k
  match l.discRetry with
  | none => idle s
  | some t => guarded (decide (k < 36 ∧ t ≤ s.now) && l.mig.isNone && l.loop.isNone) s
      (served ((s.modLink k fun y => { y with discRetry := none }).discover k))

/-- Roles of LNK_ASSIGN by lane. -/
def roleOf (v n : Nat) (rx : Bool) : Nat := v / 2 ^ (3 * n + if rx then 27 else 0) % 8

/-- R245: an assignment that the module takes: a link that is DOWN or HELD, no role for a lane whose ring is OFF. -/
def State.assignPut (s : State) (k v : Nat) : Except Code State :=
  let l := s.link k
  let bad := (List.range 9).any fun n =>
    (roleOf v n false != 0 && (l.lane n).txState == 0) || (roleOf v n true != 0 && (l.lane n).rxState == 0)
      || roleOf v n false == 7 || roleOf v n true == 7
  if s.up k ∨ bad then .error Err.laneAssign
  else
    let put (rx : Bool) (t : Tab Nat) : Tab Nat := (List.range 9).foldl (fun u n => u.set 1 n (roleOf v n rx)) t
    .ok (s.modLink k fun y => { y with txRole := put false y.txRole, rxRole := put true y.rxRole })

/-- A refused write of an optics register (R245, R248, R249). One of a link's registers names the link in OPT_FAULT, and its record the lane's
LANE_STATUS, lane 0 where the register is of no lane; that of another register its own address (log entry 108). -/
def State.optRegRefuse (s : State) (w : Who) (off : Nat) (c : Code) : State :=
  let k := (off - 0x10000) / 0x100
  let n := if 0x10 ≤ off % 0x100 ∧ off % 0x100 < 0xA0 then (off % 0x100 - 0x10) / 0x10 else 0
  let link := decide (0x10000 ≤ off ∧ off < 0x12400)
  let x := s.opt
  let y := if x.err then x else { x with
    err := true, errCode := c, faultLink := if link then k else 0, faultLane := if link then n else 0, faultDir := 0 }
  { s with opt := y }.log
    { code := c, unit := w.unit, srcId := if w.remote then some w.srcId else none, part := s.partOfUnit w.unit
      addr := some (if link then cfgBase + 0x1210010 + 0x100 * k + 0x10 * n else cfgBase + 0x1200000 + off), remote := w.remote }

/-- LNK_ASSIGN_WRITE (R245, R248). -/
def execLnkAssignWrite (w : Who) (k : Nat) (v : Word) (s : State) : Step :=
  guarded (decide (k < 36)) s <|
    let off := 0x10008 + 0x100 * k
    if w.remote ∨ (w.unit ≠ unitDispatch ∧ w.unit ≠ unitHearth) then
      done (.refused Err.optWrite) (s.optRegRefuse w off Err.optWrite)
    else match s.assignPut k v.toNat with
      | .error c => done (.refused c) (s.optRegRefuse w off c)
      | .ok t => served t

/-- A link that goes DOWN: what it loses, and its receive rings sweep until light arrives again (R215, R247, Table 08-14). -/
def State.linkDown (s : State) (k : Nat) : State :=
  let t := (s.linkLost k).modLink k fun l => (List.range 9).foldl (fun y n => y.modLane n fun x => { x with
    rxState := if x.rxState = 0 then 0 else 1, toneOk := false }) { l with cal := min l.cal 2, rxTried := s.now }
  t.touch k s

/-- LINK_SIGNAL_LOSS (R215, Table 08-14). -/
def execLinkSignalLoss (k : Nat) (s : State) : Step :=
  guarded (decide (k < 36) && (s.link k).trained) s (served (s.linkDown k))

/-- R247: maps, roles and the spare of a direction from the lanes that are usable: the first eight carry data, the ninth is the
spare. -/
def assigned (ok : Nat → Bool) : List Nat × Nat × Tab Nat :=
  let us := (List.range 9).filter ok
  let roles := (List.range 9).foldl (fun (t : Tab Nat) n =>
    t.set 1 n (if !ok n then 0 else if (us.take 8).contains n then 1 else 2)) []
  (us.take 8, (us[8]?).getD 15, roles)

/-- Every lane of a link in one role. -/
def OLink.inRole (l : OLink) (r : Nat) : OLink :=
  let put (t : Tab Nat) : Tab Nat := (List.range 9).foldl (fun u n => u.set 1 n r) t
  { l with txRole := put l.txRole, rxRole := put l.rxRole }

/-- R247: the end of start-up calibration: roles, maps, calibrated powers. -/
def OLink.train (l : OLink) (now : Nat) : OLink :=
  let a := assigned fun n => (l.lane n).txState == 3
  let b := assigned fun n => (l.lane n).rxState == 3
  let y := (List.range 9).foldl (fun z n => z.modLane n fun x => { x with
    txRel := 0, stage := 0, exhausted := false, gaveUp := false, above15 := none, above20 := none, txSweep := .none, rxSweep := .none
    txPassed := false, rxPassed := false, txBack := .none, rxBack := .none, askedOut := none, badRun := 0 }) l
  { y with
    txMap := a.1, txSpare := a.2.1, txRole := a.2.2, rxMap := b.1, rxSpare := b.2.1, rxRole := b.2.2
    trained := true, cal := 7, slot := 0, rxSlot := 0, loopLast := now }

/-- The heater code that a sweep found for lane `n`. -/
def heaterOf (found : List (Nat × Nat)) (n : Nat) : Option Nat := (found.find? fun f => f.1 == n).map (·.2)

/-- Lanes whose ring sweeps but is not among those found: SWEEP_FAILED (R233). -/
def State.sweepFails (s : State) (k : Nat) (rx : Bool) (found : List (Nat × Nat)) : State :=
  ((List.range 9).filter fun n =>
    (if rx then ((s.link k).lane n).rxState else ((s.link k).lane n).txState) == 1 && (heaterOf found n).isNone).foldl
      (fun t n => t.optLog Err.sweepFailed k n rx) s

/-- Rings of a direction that sweep: locked where a resonance was found, in FAULT elsewhere (R233, R247). -/
def OLink.swept (l : OLink) (now : Nat) (rx : Bool) (found : List (Nat × Nat)) : OLink :=
  (List.range 9).foldl (fun y n => y.modLane n fun x =>
    if rx then
      if x.rxState ≠ 1 then x
      else match heaterOf found n with
        | some h => { x with rxState := 3, rxHeater := h % 4096, rxCal := h % 4096, toneOk := true, rxSwept := now }
        | none => { x with rxState := 4 }
    else if x.txState ≠ 1 then x
    else match heaterOf found n with
      | some h => { x with txState := 3, txHeater := h % 4096, txCal := h % 4096, txSwept := now }
      | none => { x with txState := 4 }) l

/-- Table 09-8, 0 to 0.5 s: heaters at mid-range; the rings of wavelengths below +16.0 dBm stay OFF, the others sweep (R221). -/
def OLink.calLaser (l : OLink) (low : List Nat) : OLink :=
  (List.range 9).foldl (fun y n => y.modLane n fun x => { x with
    txHeater := 0x800, rxHeater := 0x800, txState := if low.contains n then 0 else 1, rxState := 1, toneOk := false
    txRetest := false, rxRetest := false }) { l with cal := 1 }

/-- Table 09-8, to 2.5 s: the transmit rings are swept; each then sends the spare-fill stream. -/
def State.calTx (s : State) (k : Nat) (found : List (Nat × Nat)) : State :=
  (s.sweepFails k false found).modLink k fun l =>
    let y := l.swept s.now false found
    { y with cal := 2, rxTried := s.now, txRole := (List.range 9).foldl (fun t n => t.set 1 n (if (y.lane n).txState = 3 then 2 else 0)) y.txRole }

/-- Table 09-8, to 3.5 s: the receive rings are swept on the incoming tones; discovery on λ0 begins (R246). -/
def State.calRx (s : State) (k : Nat) (found : List (Nat × Nat)) : State :=
  (s.sweepFails k true found).modLink k fun l => { (l.swept s.now true found).discOn s.now (some 0) (some 0) with cal := 3, rxTried := s.now }

/-- One ring in the BERT of start-up: above 1e-6 it is swept again once, then left OFF. -/
def OLink.bertLane (l : OLink) (n : Nat) (rx bad : Bool) : OLink :=
  l.modLane n fun x =>
    if rx then
      if x.rxState = 0 then x
      else if !bad then { x with rxState := 3, rxRetest := false }
      else if x.rxRetest then { x with rxState := 0 } else { x with rxState := 1, rxRetest := true }
    else if x.txState = 0 then x
    else if !bad then { x with txState := 3, txRetest := false }
    else if x.txRetest then { x with txState := 0 } else { x with txState := 1, txRetest := true }

/-- No ring of a link is being swept again. -/
def OLink.settledRings (l : OLink) : Bool := (List.range 9).all fun n => (l.lane n).txState != 1 && (l.lane n).rxState != 1

/-- What is found on the links of an engine, as (lane, heater code). -/
def foundOn (found : List (Nat × Nat × Nat)) (k : Nat) : List (Nat × Nat) := (found.filter fun f => f.1 == k).map (·.2)

/-- Start-up calibration of one link, by the row that it has reached, on the rings found and the links whose peer is lit (R247, Table
09-8). -/
def State.calLink (s : State) (x : CalStep) (lit : List Nat) (found : List (Nat × Nat × Nat)) (k : Nat) : State :=
  let l := s.link k
  match x with
  | .laser dbm => s.modLink k fun y => y.calLaser ((List.range 9).filter fun n => decide (dbm.getD n 0 < 4096))
  | .tx => if l.cal = 1 then s.calTx k (foundOn found k) else s
  | .rx => if l.cal = 2 ∧ lit.contains k then s.calRx k (foundOn found k) else s
  | .loopback => if l.cal = 4 then s.modLink k fun y => { y.inRole 4 with cal := 5 } else s
  | .bert => if l.cal = 5 then s.modLink k fun y => { y.inRole 5 with cal := 6 } else s
  | .bertResult r =>
    if l.cal = 6 then s.modLink k fun y =>
      (r.filter fun e => e.1 == k).foldl (fun z e => z.bertLane e.2.1 e.2.2.1 (decide (e.2.2.2.2 < 1000000 * e.2.2.2.1))) y
    else s
  | .finish =>
    if l.cal = 6 ∧ l.settledRings ∧ !(s.rake.valid && !(s.rake.links.get {} k).used) then ((s.modLink k fun y => y.train s.now).peerCheck k).touch k s else s

/-- Start-up calibration of an engine: the check of its laser input, and its end (R221, R247). -/
def State.calEngine (s : State) (e : Nat) (x : CalStep) : State :=
  match x with
  | .laser dbm =>
    let low := (List.range 9).filter fun n => decide (dbm.getD n 0 < 4096)
    let t : State := { s with opt := { s.opt with engines := s.opt.engines.mod {} e fun y => { y with
      laserOk := low.isEmpty, low := low, rel := [], stage := [], cross2 := [], cross3 := [] } } }
    low.foldl (fun u n => u.optLog Err.laserLow (6 * e) n false) t
  | .finish => { s with opt := { s.opt with engines := s.opt.engines.mod {} e fun y => { y with calDone := true } } }
  | _ => s

/-- OPTICS_CALIBRATION of engine `e`, a row of Table 09-8 after the other; discovery is DISCOVERY_DONE (R221, R247). A sweep gives `found`, the
rings that found their resonance as (link, lane, heater code), the receive sweep also `lit`, the links whose peer sends light. The laser is
checked once a power-up; a link that trains again goes through the other rows. -/
def execOpticsCalibration (e : Nat) (x : CalStep) (lit : List Nat) (found : List (Nat × Nat × Nat)) (s : State) : Step :=
  let first := match x with
    | .laser _ => true
    | _ => false
  guarded (decide (e < 6) && s.domainOn (48 + e) && (!first || (!(s.opt.engines.get {} e).calDone && (linksOf e).all fun k => (s.link k).cal == 0))) s
    (served ((linksOf e).foldl (fun u k => u.calLink x lit found k) (s.calEngine e x)))

/-- RX_SWEEP_RETRY: a dark link repeats its receive sweeps every 1 s: `found` once light arrives, as (lane, heater code) (R247). -/
def execRxSweepRetry (k : Nat) (found : Option (List (Nat × Nat))) (s : State) : Step :=
  let l := s.link k
  guarded (decide (k < 36) && s.domainOn (48 + k / 6) && l.cal == 2 && decide (l.rxTried + 1000000000 ≤ s.now)) s
    (served (match found with
      | some f => s.calRx k f
      | none => s.modLink k fun y => { y with rxTried := s.now }))

end Sys2Proof.Machine
end

