-- ==== Sys2Proof/Machine/StreamOps.lean ====
section
/-! DEFINITION. Command streams: fetch, form, tags, order, copies of blocks, trace entries (R16, R101, R118, R267 to R269, R310 to
R312). -/

namespace Sys2Proof.Machine

namespace Err
def streamFull : Code := 0x0A09
def cmdForm : Code := 0x0A0A
def streamAborted : Code := 0x0A0B
def partitionHalted : Code := 0x0A0C
def notPermitted : Code := 0x0A05
end Err

/-- The dispatch processor as a requester of partition `p`. -/
def dispatchWho (p : Nat) (prov : Option Word) : SWho :=
  { unit := unitDispatch, part := some p, prov := prov.isSome, epochLo := epochLoOf prov }

/-- A read by the dispatch processor for partition `p` (R310). -/
def dispatchReq (p : Nat) (kind : Kind) (addr n : Nat) : Req :=
  { unit := unitDispatch, part := some p, kind := kind, addr := addr, len := n }

/-- A fetched command: its eight words. -/
structure Cmd where
  w : List Nat
deriving DecidableEq, Repr

def Cmd.word (c : Cmd) (i : Nat) : Nat := (c.w[i]?).getD 0
def Cmd.op (c : Cmd) : Nat := c.word 0 % 256
def Cmd.tag (c : Cmd) : Word := BitVec.ofNat 64 (c.word 1)

/-- 64 bytes as a command. -/
def Cmd.ofBytes (bs : List Byte) : Cmd := { w := (List.range 8).map fun i => leNat ((bs.drop (8 * i)).take 8) }

/-- Words from `i` on are zero. -/
def Cmd.zeroFrom (c : Cmd) (i : Nat) : Bool := (c.w.drop i).all (· == 0)

/-- A 48-bit address in word 2. -/
def Cmd.addrOk (c : Cmd) : Bool := decide (c.word 2 < 2 ^ 48)

/-- R311, Table 12-10: no bit set that the table does not list, and the conditions on tags. `n` cores in the partition, `c` its
committed epoch number. -/
def Cmd.ok (x : Cmd) (n : Nat) (c : Word) : Bool :=
  let w0 := x.word 0
  let e := (x.word 1)
  let only (lo hi : Nat) : Bool := w0 == w0 % 256 + bits w0 hi lo * 2 ^ lo
  match x.op with
  | 0 => only 8 7 && x.zeroFrom 2
  | 1 => only 16 47 && decide (bits w0 47 16 < 2 ^ n) && x.addrOk && x.word 2 % 32 == 0 && decide (x.word 3 < 4096) && x.zeroFrom 5
  | 2 => only 8 7 && x.addrOk && x.zeroFrom 3
  | 3 | 4 => only 16 31 && x.zeroFrom 3
  | 5 => only 8 7 && x.zeroFrom 3 && decide (e ≤ c.toNat) && BitVec.ofNat 64 (x.word 2) == c + 1
  | 6 | 7 => only 16 23 && x.zeroFrom 2
  | 8 => only 16 23 && x.zeroFrom 5 && (bits w0 19 16 != 1 || decide (x.word 4 < 2 ^ 36))
  | 9 => only 16 23 && x.addrOk && x.zeroFrom 3 && decide (e ≤ c.toNat)
  | 10 => only 16 27 && x.addrOk && x.zeroFrom 3 && decide (e ≤ c.toNat)
  | _ => false

/-- A refusal of a stream command that no other unit has logged: it halts the partition (R311). -/
def State.cmdRefuse (s : State) (p k : Nat) (c : Code) : Step :=
  done (.refused c) ((s.log { code := c, unit := unitDispatch, part := some p, addr := some (s.stream p k).pos }).askHalt p c (some k))

/-- A refusal that its unit has logged. -/
def State.cmdRefused (s : State) (p k : Nat) (c : Code) : Step := done (.refused c) (s.askHalt p c (some k))

/-- R310, R312: the running list of a stream starts. -/
def Stream.begin (x : Stream) : Stream :=
  match x.lists with
  | [] => x
  | l :: _ =>
    if x.started then x
    else { x with started := true, pos := l.start, hasPos := true }

/-- R118: the command at the position is one that is not run again. -/
def Stream.skips (x : Stream) (tag : Word) : Bool :=
  match x.redo with
  | some e => x.again && tag != e
  | none => false

/-- The position moves past a command that has completed before a squash; nothing is counted. -/
def State.skipCmd (s : State) (p k : Nat) : State :=
  s.advance p k

/-- What the stream `k` finds at its position. -/
inductive Found
  | none
  | refused (c : Code)
  | cmd (x : Cmd)
deriving DecidableEq, Repr

/-- R310, R118: the next command of a stream that is to run. `n` bounds the commands skipped. -/
def State.nextCmd (p k : Nat) : Nat → State → Found × State
  | 0, s => (.none, s)
  | n + 1, s =>
    let t := s.modStream p k Stream.begin
    let x := t.stream p k
    if x.lists.isEmpty then (.none, t)
    else
      let r := t.memReq (dispatchReq p .read x.pos 64)
      match r.1 with
      | .ok bs =>
        let c := Cmd.ofBytes bs
        if x.skips c.tag then State.nextCmd p k n (r.2.skipCmd p k) else (.cmd c, r.2)
      | .refused e => (.refused e, r.2)
      | _ => (.none, s)

/-- The first command of a provisional tag marks its place (R118, R274). -/
def Stream.mark (x : Stream) (tag : Word) : Stream :=
  if x.marks.any fun m => m.1 == tag then x else { x with marks := x.marks ++ [(tag, x.past.length, x.pos)] }

/-- R311: a row of a stream command: the current command of stream `k`, if it is one that `sel` names, in form and allowed by
its tag. `run` gets it with whether it runs provisionally. -/
def State.streamRow (s : State) (p k : Nat) (sel : Cmd → Bool) (run : Cmd → Bool → State → Step) : Step :=
  guarded (decide (p < 8 ∧ k < 64) && (s.part p).valid && !(s.part p).halted && (s.part p).haltReq.isNone) s <|
    match State.nextCmd p k 70000 s with
    | (.none, _) => idle s
    | (.refused c, t) => t.cmdRefused p k c
    | (.cmd x, t) =>
      let part := t.part p
      let c := part.epoch
      if !x.ok (2 ^ part.log2) c then t.cmdRefuse p k Err.cmdForm
      else if !sel x ∨ c.toNat + 1 < x.tag.toNat ∨ part.squash = some x.tag then idle s
      else if c.toNat < x.tag.toNat then run x true (t.modStream p k fun y => y.mark x.tag)
      else run x false t

/-- A command that completes at once (R311). -/
def State.cmdDone (s : State) (p k : Nat) : Step := served (s.advance p k)

/-- Halves of a bundle store that a core still needs (R101). -/
def Core.halvesUsed (k : Core) : List Nat := (k.block.toList ++ k.launches).map (·.half)

/-- The half of a core into which a block may go: one that nothing needs, or one that holds this very block. -/
def Core.halfFor (k : Core) (addr : Nat) (img : List (BitVec 256)) : Option Nat :=
  (([0, 1] : List Nat).find? fun h => !k.halvesUsed.contains h).or
    (([0, 1] : List Nat).find? fun h =>
      ((k.block.toList ++ k.launches).all fun l => l.half != h || (l.addr == addr && l.bundles == img.length))
        && k.bundles.getList 0 (4096 * h) img.length == img)

/-- R101: a block copied into core `c` and its launch queued; none where there is no room. -/
def State.queueOn (s : State) (c : Nat) (img : List (BitVec 256)) (addr : Nat) (arg tag : Word) (stream : Nat) : Option State :=
  let k := s.core c
  if 8 ≤ k.launches.length then none
  else (k.halfFor addr img).map fun h => s.modCore c fun y => { y with
    bundles := (y.bundles.clearRange (4096 * h) (4096 * h + 4096)).setList 0 (4096 * h) img
    launches := y.launches ++ [{ half := h, arg := arg, tag := tag, addr := addr, bundles := img.length, stream := stream,
                                 copied := true }] }

/-- R101, R311: the launch goes to every named core with room; those left over wait. -/
def State.launchOn (s : State) (cs : List Nat) (img : List (BitVec 256)) (addr : Nat) (arg tag : Word) (k : Nat) :
    State × List Nat :=
  cs.foldl (fun acc c => match acc.1.queueOn c img addr arg tag k with
    | some t => (t, acc.2)
    | none => (acc.1, acc.2 ++ [c])) (s, [])

/-- Bytes of a block as bundles. -/
def bundlesOf (bs : List Byte) : List (BitVec 256) :=
  (List.range (bs.length / 32)).map fun i => BitVec.ofNat 256 (leNat ((bs.drop (32 * i)).take 32))

/-- R268: a 32-byte trace entry. A refused write is logged and halts nothing. -/
def State.trace (s : State) (p k id kind : Nat) (prov order : Bool) (elapsed : Word) : State :=
  let x := s.part p
  if x.traceSize = 0 then s
  else
    let bs := leBytes s.sync.ft.toNat 8 ++ leBytes id 1 ++ leBytes kind 1 ++ leBytes k 1
      ++ leBytes (prov.toNat + 2 * order.toNat) 1 ++ leBytes 0 4 ++ leBytes x.epoch.toNat 8 ++ leBytes elapsed.toNat 8
    let r : Req := { dispatchReq p .write (x.traceBase + x.traceIndex.toNat % x.traceSize) 32 with data := bs }
    (s.memReq r).2.modPart p fun y => { y with traceIndex := y.traceIndex + 32 }

/-- R267: PHASE_ORDER is logged and is no fault. -/
def State.phaseOrder (s : State) (p k : Nat) (prov : Bool) : State := s.rakeErr Err.phaseOrder (some p) prov (some (s.stream p k).pos)

/-- R267: BEGIN of a phase record. -/
def Phase.begin (x : Phase) (ft : Word) : Phase := { x with openAt := ft, isOpen := true }

/-- R267: END of an open phase record. -/
def Phase.end' (x : Phase) (ft : Word) : Phase :=
  let d := ft - x.openAt
  { x with isOpen := false, last := d, count := x.count + 1, total := x.total + d
           min := if d.toNat < x.min.toNat then d else x.min, max := if x.max.toNat < d.toNat then d else x.max }

/-- R16: stream `k` has begun a command tagged `e`, or has to run one again after a squash. -/
def State.streamOwes (s : State) (p k : Nat) (e : Word) : Bool :=
  let x := s.stream p k
  if x.toQueue.isNone ∧ x.redo ≠ some e then false
  else match State.nextCmd p k 70000 s with
    | (.cmd c, t) => c.tag == e && ((t.stream p k).toQueue.isSome || (t.stream p k).again)
    | _ => false

/-- R16: work of epoch `e` of the partition is still to be completed: a launch, a block, a descriptor or a collective tagged `e`, of any
stream, or a command of a stream (log entry 58). -/
def State.epochWork (s : State) (p : Nat) (e : Word) : Bool :=
  ((s.part p).cores.any fun c =>
    let x := s.core c
    ((x.block.toList ++ x.launches).any fun l => l.tag == e)
      || ([0, 1] : List Nat).any fun m => ((s.mover c m).active.any fun a => a.tag == e))
    || ((s.rake.active ++ s.rake.queue).any fun x => x.part == p && x.tag == e)
    || (s.part p).streams.any fun x => s.streamOwes p x.1 e

end Sys2Proof.Machine
end

