-- ==== Sys2Proof/Machine/StreamCmds.lean ====
section
/-! DEFINITION. The rows of Table 12-10: one command of stream `k` of partition `p`. -/

namespace Sys2Proof.Machine

/-- NOP (Table 12-10). -/
def execNop (p k : Nat) (s : State) : Step := s.streamRow p k (fun x => x.op == 0) fun _ _ t => t.cmdDone p k

/-- LAUNCH (R101, R311). -/
def execLaunch (p k : Nat) (s : State) : Step :=
  s.streamRow p k (fun x => x.op == 1) fun x _ t =>
    let part := t.part p
    let named := (List.range (2 ^ part.log2)).filterMap fun i => if bit (x.word 0) (16 + i) then some (part.first + i) else none
    let left := (t.stream p k).toQueue.getD named
    let r := t.memReq (dispatchReq p .fetch (x.word 2) (32 * (x.word 3 + 1)))
    match r.1 with
    | .ok bs =>
      let q := r.2.launchOn left (bundlesOf bs) (x.word 2) (BitVec.ofNat 64 (x.word 4)) x.tag k
      if q.2.isEmpty then q.1.cmdDone p k
      else done .held (q.1.modStream p k fun y => { y with toQueue := some q.2 })
    | .refused c => r.2.cmdRefused p k c
    | _ => idle s

/-- COLL: the rake takes a launch record, or refuses it (R255, R260). -/
def execColl (p k : Nat) (s : State) : Step :=
  s.streamRow p k (fun x => x.op == 2) fun x prov t =>
    let r := t.memReq (dispatchReq p .read (x.word 2) 64)
    match r.1 with
    | .ok bs =>
      (match collRecOf bs with
        | some rc =>
          let mine := ((t.rake.active ++ t.rake.queue).filter fun c => c.part == p).length
          if !t.collOk rc then (r.2.rakeErr Err.collForm (some p) prov (some (x.word 2))).cmdRefused p k Err.collForm
          else if 64 ≤ (t.rake.active ++ t.rake.queue).length ∨ 16 ≤ mine then idle s
          else
            let c : Coll := { part := p, stream := k, tag := x.tag, attempt := 0, rc := rc }
            State.cmdDone { r.2 with rake := { r.2.rake with queue := r.2.rake.queue ++ [c] } } p k
        | none => (r.2.rakeErr Err.collForm (some p) prov (some (x.word 2))).cmdRefused p k Err.collForm)
    | .refused c => r.2.cmdRefused p k c
    | _ => idle s

/-- WAIT: a watch of the partition's slots, then its firing (R112, R115, R164, R311). -/
def execWait (p k : Nat) (s : State) : Step :=
  s.streamRow p k (fun x => x.op == 3) fun x prov t =>
    let y := t.stream p k
    if y.fired then t.cmdDone p k
    else if y.wait.isSome then idle s
    else
      let sp := t.sync.splits.get {} p
      let i := bits (x.word 0) 31 16
      let who := dispatchWho p (if prov then some x.tag else none)
      match t.sync.freeSlot sp.first sp.count with
      | none => (t.syncRefuse who 0 i Err.watchFull).cmdRefused p k Err.watchFull
      | some slot =>
        let w : Watch := { cond := 0, view := prov, dest := 0, counter := i, value := BitVec.ofNat 64 (x.word 2), time := 0, word3 := 0
                           who := .stream p k, epoch := if prov then some x.tag else none, part := some p }
        match t.armWait who slot w with
        | (some c, u) => u.cmdRefused p k c
        | (none, u) =>
          if (u.stream p k).fired then u.cmdDone p k
          else done .held (u.modStream p k fun z => { z with wait := some slot })

/-- SIGNAL (R161, R311). -/
def execSignal (p k : Nat) (s : State) : Step :=
  s.streamRow p k (fun x => x.op == 4) fun x prov t =>
    match t.counterAdd (dispatchWho p (if prov then some x.tag else none)) (bits (x.word 0) 31 16) (BitVec.ofNat 64 (x.word 2)) with
    | (none, u) => u.cmdDone p k
    | (some c, u) => u.cmdRefused p k c

/-- COMMIT: once its conditions hold, the apply pass begins; the command completes with COMMIT_EVENT (R16, R148, R273, R282). -/
def execCommit (p k : Nat) (s : State) : Step :=
  s.streamRow p k (fun x => x.op == 5) fun x _ t =>
    let e := BitVec.ofNat 64 (x.word 2)
    let part := t.part p
    let capturing := match part.snap.drain with
      | some d => !d.sending
      | none => false
    if part.commit.isSome ∨ part.squash = some e ∨ t.epochWork p e then idle s
    else if capturing && part.snap.stall then idle s
    else
      let u := if capturing then (t.drainStop p).snapEvent p Err.drainLate else t
      served (u.modPart p fun y => { y with commit := some { stream := k, epoch := e } }).reapply

/-- PHASE_BEGIN (R267, R268). -/
def execPhaseBegin (p k : Nat) (s : State) : Step :=
  s.streamRow p k (fun x => x.op == 6) fun x prov t =>
    let i := bits (x.word 0) 23 16
    let late := ((t.part p).phases.get {} i).isOpen
    let u := t.modPart p fun y => { y with phases := y.phases.mod {} i fun z => z.begin t.sync.ft }
    let v := u.trace p k i 0 prov late 0
    (if late then v.phaseOrder p k prov else v).cmdDone p k

/-- PHASE_END (R267, R268). -/
def execPhaseEnd (p k : Nat) (s : State) : Step :=
  s.streamRow p k (fun x => x.op == 7) fun x prov t =>
    let i := bits (x.word 0) 23 16
    let z := (t.part p).phases.get {} i
    if z.isOpen then
      let u := t.modPart p fun y => { y with phases := y.phases.mod {} i fun z => z.end' t.sync.ft }
      (u.trace p k i 1 prov false (z.end' t.sync.ft).last).cmdDone p k
    else ((t.trace p k i 1 prov true z.last).phaseOrder p k prov).cmdDone p k

/-- A HINT of kind `kind`; one of a reserved kind is refused (R269). -/
def State.hintRow (s : State) (p k kind : Nat) (run : Cmd → State → State) : Step :=
  s.streamRow p k (fun x => x.op == 8 && (bits (x.word 0) 19 16 == kind || decide (2 < bits (x.word 0) 19 16))) fun x prov t =>
    let i := bits (x.word 0) 23 20
    if 2 < bits (x.word 0) 19 16 ∨ (kind = 2 ∧ 2 < i) then
      (t.rakeErr Err.hintForm (some p) prov (some (t.stream p k).pos)).cmdRefused p k Err.hintForm
    else ((run x t).trace p k i 2 prov false 0).cmdDone p k

/-- HEAVY (R269, R331). -/
def execHeavy (p k : Nat) (s : State) : Step :=
  s.hintRow p k 0 fun x t => { t with pwr := { t.pwr with
    hints := t.pwr.hints ++ [(p, bits (x.word 0) 23 20, x.word 2, x.word 3, none)] } }

/-- R237, R269: a gap as it is announced to a link. -/
def OLink.gap (l : OLink) (start stop now : Nat) : OLink :=
  let a := max start now
  if a + 2500000 ≤ stop then { l with gaps := l.gaps ++ [{ start := a, stop := stop, rounds := (stop - a) / 2500000 }] } else l

/-- GAP (R237, R269). -/
def execGap (p k : Nat) (s : State) : Step :=
  s.hintRow p k 1 fun x t => ((List.range 36).filter fun n => bit (x.word 4) n).foldl (fun u n =>
    u.modLink n fun l => l.gap (x.word 2) (x.word 2 + x.word 3) t.sync.ft.toNat) t

/-- MEM_USE (R269). -/
def execMemUse (p k : Nat) (s : State) : Step :=
  s.hintRow p k 2 fun x t => t.modPart p fun y =>
    let i := bits (x.word 0) 23 20
    let v := BitVec.ofNat 64 (x.word 4)
    { y with memCur := y.memCur.set 0 i v
             memPeak := if (y.memPeak.get 0 i).toNat < v.toNat then y.memPeak.set 0 i v else y.memPeak }

/-- The list that runs was submitted by a virtual function: it holds no REGION_SET or WATCH_SET (R309). -/
def State.virtualList (s : State) (p k : Nat) : Bool :=
  match (s.stream p k).lists with
  | l :: _ => l.fn != 0
  | [] => false

/-- A stream command that writes an entry of 32 bytes. -/
def State.entryRow (s : State) (p k op : Nat) (run : Cmd → (Nat → Word) → State → Step) : Step :=
  s.streamRow p k (fun x => x.op == op) fun x _ t =>
    if t.virtualList p k then t.cmdRefuse p k Err.notPermitted
    else
      let r := t.memReq (dispatchReq p .read (x.word 2) 32)
      match r.1 with
      | .ok bs => run x (fun i => BitVec.ofNat 64 (leNat ((bs.drop (8 * i)).take 8))) r.2
      | .refused c => r.2.cmdRefused p k c
      | _ => idle s

/-- STREAM_REGION_SET (R131, R132, R311). -/
def execStreamRegionSet (p k : Nat) (s : State) : Step :=
  s.entryRow p k 9 fun x w t =>
    let i := bits (x.word 0) 23 16
    match t.regionPut p i (w 0).toNat (w 1).toNat (w 2).toNat (w 3).toNat with
    | .ok u => u.cmdDone p k
    | .error c => (t.memRegRefuse { unit := unitDispatch } (some p) (pmemBase p + 0x1000 + 32 * i) c).cmdRefused p k c

/-- STREAM_WATCH_SET (R164 to R166, R311). -/
def execStreamWatchSet (p k : Nat) (s : State) : Step :=
  s.entryRow p k 10 fun x w t =>
    match t.watchWrite (dispatchWho p none) (bits (x.word 0) 27 16) (w 0) (w 1) (w 2) (w 3) (.part p) none with
    | (none, u) => u.cmdDone p k
    | (some c, u) => u.cmdRefused p k c

end Sys2Proof.Machine
end

