-- ==== Sys2Proof/Machine/SnapOps.lean ====
section
/-! DEFINITION. The drain engine: captures, schedule records, what goes to the holders, quiesce and load, what serves a fill (R274,
R279 to R291). -/

namespace Sys2Proof.Machine

namespace Err
def snapAbandoned : Code := 0x0905
def restoreEpoch : Code := 0x0906
def fillBusy : Code := 0x0907
def fillNoSource : Code := 0x0908
end Err

/-- A request of the drain engine for partition `p` (UNIT 0x62). -/
def drainReq (p : Nat) (kind : Kind) (addr n : Nat) (data : List Byte := []) : Req :=
  { unit := 0x62, part := some p, kind := kind, addr := addr, len := n, data := data }

/-- Bytes read by the drain engine, a request a page. -/
def State.drainGet (s : State) (p a n : Nat) : MemRes × State :=
  (pieces 4096 a n).foldl (fun (acc : MemRes × State) e =>
    match acc.1 with
    | .ok bs =>
      let r := acc.2.memReq (drainReq p .read e.1 e.2)
      (match r.1 with
        | .ok cs => (.ok (bs ++ cs), r.2)
        | o => (o, r.2))
    | _ => acc) (.ok [], s)

/-- Bytes written by the drain engine, a request a page. -/
def State.drainPut (s : State) (p a : Nat) (data : List Byte) : MemRes × State :=
  (pieces 4096 a data.length).foldl (fun (acc : MemRes × State) e =>
    match acc.1 with
    | .ok _ => acc.2.memReq (drainReq p .write e.1 e.2 ((data.drop (e.1 - a)).take e.2))
    | _ => acc) (.ok [], s)

/-- A page copied from one device address to another. -/
def State.copyPage (s : State) (p src dst : Nat) : MemRes × State :=
  let r := s.drainGet p src 4096
  match r.1 with
  | .ok bs => r.2.drainPut p dst bs
  | o => (o, r.2)

/-- Up to a multiple of 4 KiB. -/
def pageUp (n : Nat) : Nat := (n + 4095) / 4096 * 4096

/-- The SNAP regions of a partition in ascending index, with their offset within a slot (R279). -/
def Part.snapList (x : Part) : List (Nat × Region × Nat) :=
  ((x.mem.regions.filter fun e => e.2.valid && (x.snap.regions.get {} e.1).snap).foldl
    (fun (acc : List (Nat × Region × Nat) × Nat) e => (acc.1 ++ [(e.1, e.2, acc.2)], acc.2 + pageUp e.2.half)) ([], 0x100000)).1

/-- Device address of local slot `i`. -/
def Snap.slotAt (x : Snap) (i : Nat) : Nat := x.locBase + i * x.slotSize

/-- Lines of 64 bytes that differ. -/
def changedLines (a b : List Byte) : Nat :=
  ((List.range (a.length / 64)).filter fun i => (a.drop (64 * i)).take 64 != (b.drop (64 * i)).take 64).length

/-- R281: one page of region `i` captured, and its changed lines counted. -/
def State.capturePage (s : State) (p i page : Nat) : MemRes × State :=
  let x := s.part p
  match x.snap.drain, x.snapList.find? fun e => e.1 == i with
  | some d, some (_, g, off) =>
    let r := s.drainGet p (g.base + g.half + 4096 * page) 4096
    (match r.1 with
      | .ok bs =>
        let w := r.2.drainPut p (x.snap.slotAt d.slot + off + 4096 * page) bs
        (match w.1 with
          | .ok _ =>
            let n := if x.snap.latest = 3 then 64
              else changedLines bs (s.mem.peek (x.snap.slotAt x.snap.latest + off + 4096 * page) 4096)
            (.ok [], w.2.modSnap p fun y => { y with
              drain := y.drain.map fun d => { d with
                pages := d.pages ++ [(i, page)], changed := d.changed.mod 0 i (· + n) }
              drainDone := y.drainDone + 4096 })
          | o => (o, w.2))
      | o => (o, r.2))
  | _, _ => (.ok [], s)

/-- Pages of the SNAP regions still to be captured. -/
def Part.uncaptured (x : Part) : List (Nat × Nat) :=
  match x.snap.drain with
  | none => []
  | some d => x.snapList.flatMap fun e =>
      ((List.range (e.2.1.half / 4096)).map fun k => (e.1, k)).filter fun q => !d.pages.contains q

/-- The pages that a request held by R282 waits for. -/
def State.waitsFor (s : State) (p : Nat) (h : Held) : List (Nat × Nat) :=
  if h.part ≠ p ∨ h.timed then []
  else match s.hit [p] h.req.addr h.req.len with
    | none => []
    | some t =>
      let ph := t.reg.phys h.req.addr
      if ph.2 ∧ (s.part p).drainMeets t true ((ph.1 - t.reg.base) % t.reg.half) h.req.len then
        ((pieces 4096 ((ph.1 - t.reg.base) % t.reg.half) h.req.len).map fun e => (t.idx, e.1 / 4096)).filter fun q =>
          (s.part p).uncaptured.contains q
      else []

/-- Pages that held writes target. -/
def State.wanted (s : State) (p : Nat) : List (Nat × Nat) := s.mem.held.flatMap fun e => e.2.flatMap (s.waitsFor p)

/-- R281, R282: the page that the drain captures next: one that a held write targets, else the lowest. -/
def State.nextPage (s : State) (p : Nat) : Option (Nat × Nat) := (s.wanted p).head?.or (s.part p).uncaptured.head?

/-- Held writes whose pages are captured are released. -/
def State.releaseHeld (s : State) (p : Nat) : State :=
  let t := s.rejudge fun h => h.part == p && !h.timed
  t.modSnap p fun x => { x with stalling := !(t.wanted p).isEmpty }

/-- Pages captured one after the other, until one is refused or held. -/
def State.captureAll (p : Nat) : List (Nat × Nat) → State → MemRes × State
  | [], s => (.ok [], s)
  | q :: l, s =>
    let r := s.capturePage p q.1 q.2
    match r.1 with
    | .ok _ => State.captureAll p l r.2
    | o => (o, r.2)

/-- PHASEi as 64 bytes. -/
def Phase.bytes (x : Phase) : List Byte :=
  wordBytes [x.count.toNat, x.total.toNat, x.min.toNat, x.max.toNat, x.last.toNat, x.openAt.toNat, x.isOpen.toNat, 0]

/-- A schedule record as it is written for partition `p` of `cores` cores (Table 11-2). -/
def SchedRec.bytes (r : SchedRec) (p cores : Nat) : List Byte :=
  leBytes 0x534E5231 4 ++ leBytes 1 2 ++ leBytes p 1 ++ leBytes 0 1 ++ leBytes r.groups.length 2 ++ leBytes (3 * cores) 1
    ++ leBytes 0 5 ++ leBytes r.epoch.toNat 8 ++ leBytes r.planId.toNat 8 ++ leBytes r.selfId 2 ++ leBytes 0 30
    ++ (List.range 64).flatMap (fun i => leBytes (r.streams.get 0 i) 8)
    ++ (List.range 96).flatMap (fun u => leBytes (r.draws.get {} u).step.toNat 8 ++ leBytes ((r.draws.get {} u).count % 2 ^ 48) 8)
    ++ (List.range 256).flatMap (fun i => (r.phases.get {} i).bytes)
    ++ r.groups.flatMap fun g =>
      leBytes g.1 8 ++ (List.range 256).flatMap fun i => leBytes (g.2.get 0 (256 * g.1 + i)).toNat 8

/-- Bytes of a record with `n` groups. -/
def recSize (n : Nat) : Nat := 0x4840 + 2056 * n

/-- A word of a byte string. -/
def wordAt (bs : List Byte) (off n : Nat) : Nat := leNat ((bs.drop off).take n)

/-- A schedule record as it is read back. -/
def SchedRec.ofBytes (bs : List Byte) : SchedRec where
  epoch := BitVec.ofNat 64 (wordAt bs 0x10 8)
  planId := BitVec.ofNat 64 (wordAt bs 0x18 8)
  selfId := wordAt bs 0x20 2 % 2 ^ 14
  streams := (List.range 64).foldl (fun t i => t.set 0 i (wordAt bs (0x40 + 8 * i) 8)) []
  draws := (List.range (wordAt bs 0x0A 1)).foldl (fun t u =>
    t.set {} u { step := BitVec.ofNat 64 (wordAt bs (0x240 + 16 * u) 8), count := wordAt bs (0x248 + 16 * u) 6 }) []
  phases := (List.range 256).foldl (fun t i =>
    let w (j : Nat) : Word := BitVec.ofNat 64 (wordAt bs (0x840 + 64 * i + 8 * j) 8)
    t.set {} i { count := w 0, total := w 1, min := w 2, max := w 3, last := w 4, openAt := w 5, isOpen := bit (w 6).toNat 0 }) []
  groups := (List.range (wordAt bs 0x08 2)).map fun j =>
    let at' := 0x4840 + 2056 * j
    let g := wordAt bs at' 1
    (g, (List.range 256).foldl (fun t i => t.set 0 (256 * g + i) (BitVec.ofNat 64 (wordAt bs (at' + 8 + 8 * i) 8))) [])

/-- A directory entry (Table 11-1). -/
def dirEntry (off : Nat) (present delta : Bool) (e : Word) : List Byte :=
  wordBytes [off + present.toNat * 2 ^ 40 + delta.toNat * 2 ^ 41, e.toNat]

/-- The directory of a slot: every SNAP region with its offset, PRESENT where `q` says so (log entry 61). -/
def Part.directory (x : Part) (e : Word) (q : Nat → Bool) : List Byte :=
  (List.range 256).flatMap fun i =>
    match x.snapList.find? fun r => r.1 == i with
    | some (_, _, off) => dirEntry off (q i) (x.snap.regions.get {} i).delta e
    | none => dirEntry 0 false false 0

/-- Runs of unchanged and changed lines as the words of a delta body (R285). -/
def deltaWord (z : Nat) (lits : List (List Byte)) : List Byte :=
  (List.replicate (z / 0xFFFFF) (leBytes 0xFFFFF 4)).flatten ++ leBytes (z % 0xFFFFF + lits.length * 2 ^ 20) 4 ++ lits.flatten

/-- The body of a delta record: `none` for an unchanged line, else its XOR (R285). -/
def deltaBody : Nat → List (List Byte) → List (Option (List Byte)) → List Byte
  | z, lits, [] => if lits.isEmpty then [] else deltaWord z lits
  | z, lits, none :: r => if lits.isEmpty then deltaBody (z + 1) [] r else deltaWord z lits ++ deltaBody 1 [] r
  | z, lits, some l :: r =>
    if lits.length = 4095 then deltaWord z lits ++ deltaBody 0 [l] r else deltaBody z (lits ++ [l]) r

/-- XOR of two byte strings. -/
def xorBytes (a b : List Byte) : List Byte := List.zipWith (· ^^^ ·) a b

/-- The header of a delta record (R285). -/
def deltaHead (e : Word) (region kind body : Nat) : List Byte :=
  wordBytes [e.toNat, region + kind * 2 ^ 8 + body * 2 ^ 16] ++ List.replicate 48 0

/-- The delta record of `n` bytes at `new` against those at `old`. -/
def State.deltaRec (s : State) (e : Word) (i old new n : Nat) : List Byte :=
  let ls := (List.range (n / 64)).map fun k =>
    let a := s.mem.peek (new + 64 * k) 64
    let b := s.mem.peek (old + 64 * k) 64
    if a = b then none else some (xorBytes a b)
  let body := deltaBody 0 [] ls
  deltaHead e i 0 body.length ++ body

/-- R286: whether a region's method is DELTA from this base on. -/
def Snap.methodOf (x : Snap) (r : SnapRegion) (h : Nat) : Bool :=
  match r.mode with
  | 1 => false
  | 2 => true
  | _ =>
    if 2 * h < x.deltaMin * 2 ^ 20 ∨ x.rateHi * 256 < r.rate then false
    else if r.rate ≤ x.rateLo * 256 then true
    else r.delta

/-- R281: RATE of every SNAP region from the lines counted; at a base, its method. -/
def Part.rated (x : Part) (d : Drain) : Snap :=
  x.snapList.foldl (fun y e =>
    let n := e.2.1.half / 64
    let rate := min 0xFFFF (d.changed.get 0 e.1 * 65536 / max n 1)
    { y with regions := y.regions.mod {} e.1 fun r =>
      let r' := { r with rate := rate }
      if d.base then { r' with delta := y.methodOf r' e.2.1.half } else r' }) x.snap

/-- The fixed part of a holder's header (Table 11-3). -/
def holderHead (kind client : Nat) (planId : Word) (slotSize : Nat) : List Byte :=
  leBytes 0x534E4131 4 ++ leBytes kind 1 ++ leBytes 0 3 ++ leBytes client 2 ++ leBytes 0 6
    ++ wordBytes [planId.toNat, slotSize]

/-- SLOTs of the header. -/
def holderSlot (e : Word) (state scope : Nat) : List Byte := wordBytes [e.toNat, state + scope * 2 ^ 8, 0, 0]

/-- Where slot `k` of a holder area at `off` begins. -/
def Snap.holderSlotAt (x : Snap) (off k : Nat) : Nat := off + 4096 + k * x.slotSize

/-- What carries a slot to a holder: header, empty directory, record, regions, directory, STATE 2 (R280, R281, Table 11-4). -/
def State.slotSends (s : State) (p : Nat) (d : Drain) (dst off kind k : Nat) (scope : Nat) (q : Nat → Bool) (n : Nat) : List Send :=
  let x := s.part p
  let here := x.snap.slotAt d.slot
  let there := x.snap.holderSlotAt off k
  let entry (state : Nat) : Send := { dst := dst, off := off + 0x20 + 32 * k, data := holderSlot d.epoch state scope, fence := true }
  [{ dst := dst, off := off, data := holderHead kind s.fab.id s.rake.planId x.snap.slotSize }, entry 1,
   { dst := dst, off := there, data := x.directory d.epoch fun _ => false },
   { dst := dst, off := there + 0x1000, src := here + 0x1000, len := recSize n, fence := true }]
    ++ ((x.snapList.filter fun e => q e.1).map fun e =>
      ({ dst := dst, off := there + e.2.2, src := here + e.2.2, len := e.2.1.half } : Send))
    ++ [{ dst := dst, off := there, data := x.directory d.epoch q, fence := true }, entry 2]

/-- The base slot at the log holder that the next base takes. -/
def Snap.nextBase (x : Snap) : Nat := if x.holdBase = 0 then 1 else 0

/-- LOG_TAIL and LOG_END at the log holder. -/
def Snap.logSend (x : Snap) (tail stop : Nat) : Send :=
  { dst := x.holdD, off := x.holdDOff + 0x88, data := wordBytes [tail, stop], fence := true }

/-- LOG_SIZE at the log holder. -/
def Snap.sizeSend (x : Snap) (p : Nat) : Send :=
  { dst := x.holdD, off := x.holdDOff + 0x80, data := wordBytes [(Config.logSize p).toNat], fence := true }

/-- Where the delta log begins: after the two base slots. -/
def Snap.logAt (x : Snap) : Nat := x.holderSlotAt x.holdDOff 2

/-- The delta records of a snapshot with its end record (R285). -/
def State.deltaRecs (s : State) (p : Nat) (d : Drain) : List (Nat × List Byte) :=
  let x := s.part p
  (x.snapList.filter fun e => (x.snap.regions.get {} e.1).delta).map (fun e =>
    (e.1, s.deltaRec d.epoch e.1 (x.snap.slotAt x.snap.latest + e.2.2) (x.snap.slotAt d.slot + e.2.2) e.2.1.half))
    ++ [(256, deltaHead d.epoch 0 1 0)]

/-- What goes to the log holder: at a base a whole slot, else delta records after LOG_END. -/
def State.logSends (s : State) (p : Nat) (d : Drain) (n : Nat) : List Send × Nat :=
  let x := (s.part p).snap
  if d.base then
    (s.slotSends p d x.holdD x.holdDOff 1 x.nextBase 1 (fun _ => true) n ++ [x.sizeSend p, x.logSend 0 0], 0)
  else
    let rs := (s.deltaRecs p d).flatMap (·.2)
    ([{ dst := x.holdD, off := x.logAt + x.logEnd, data := rs }, x.logSend x.logTail (x.logEnd + rs.length)], x.logEnd + rs.length)

/-- LAST_BYTES of the SNAP regions: what a snapshot sends of each. -/
def State.lastBytes (s : State) (p : Nat) (d : Drain) : Snap :=
  let x := s.part p
  let rs := if d.base then [] else s.deltaRecs p d
  let sent (e : Nat × Region × Nat) (r : SnapRegion) : Nat :=
    if d.base then 2 * e.2.1.half
    else if r.delta then ((rs.find? fun q => q.1 == e.1).map fun q => q.2.length).getD 0
    else e.2.1.half
  x.snapList.foldl (fun y e => { y with regions := y.regions.mod {} e.1 fun r => { r with lastBytes := sent e r } }) x.snap

/-- R281, Table 11-4: capture is done and the record written; sending begins. -/
def State.beginSending (s : State) (p : Nat) (d : Drain) (n : Nat) : State :=
  let x := (s.part p).snap
  let m := s.slotSends p d x.holdM x.holdMOff 0 d.slot d.base.toNat (fun i => d.base || !(x.regions.get {} i).delta) n
  let l := s.logSends p d n
  let t := s.modSnap p fun _ => s.lastBytes p d
  t.modSnap p fun y => { y with
    sends := y.sends ++ m ++ l.1, logEnd := l.2, drain := y.drain.map fun d => { d with sending := true } }

/-- R283: STATE of the slot of a snapshot at both holders. -/
def Snap.verdictSends (x : Snap) (a : Agree) (k : Nat) (state : Nat) : List Send :=
  { dst := x.holdM, off := x.holdMOff + 0x20 + 32 * k, data := holderSlot a.epoch state a.base.toNat } ::
    if a.base then [{ dst := x.holdD, off := x.holdDOff + 0x20 + 32 * x.nextBase, data := holderSlot a.epoch state 1 }] else []

/-- R283: the snapshot is job-complete. -/
def Snap.complete' (x : Snap) (a : Agree) (k : Nat) : Snap :=
  let y := { x with
    slots := x.slots.mod {} k fun t => { t with state := 3 }, latest := k, lastComplete := a.epoch, complete := x.complete + 1
    logTail := x.logEnd
    sends := x.sends ++ x.verdictSends a k 3 ++ [x.logSend x.logEnd x.logEnd], agree := none }
  if a.base then { y with base := k, lastBase := a.epoch, sinceBase := 0, needBase := false, holdBase := x.nextBase }
  else { y with sinceBase := x.sinceBase + 1 }

/-- R283: the slots and log records of a snapshot that is not job-complete are discarded. -/
def Snap.discard (x : Snap) (a : Agree) : Snap :=
  match a.slot with
  | none => { x with agree := none }
  | some k => { x with
      agree := none, slots := x.slots.set {} k {}, logEnd := x.logTail
      sends := x.sends ++ x.verdictSends a k 0 ++ [x.logSend x.logTail x.logTail] }

/-- R278: the agreement of the next skipped snapshot. -/
def Snap.nextSkip (x : Snap) : Snap :=
  match x.agree, x.skips with
  | none, e :: l => { x with agree := some { epoch := e, good := false, slot := none, base := false }, skips := l }
  | _, _ => x

/-- R14, R288: the cores and movers of a partition lose all that runs; what work tagged `e` has written is poisoned. -/
def Core.quiet (x : Core) (e : Word) : Core :=
  let k := x.poison e
  { k with
    late := []
    block := none, launches := [], flights := [], branch := none, waiting := none, dutyHold := false, squashHold := false
    trace := {}, ve := { k.ve with save := none }, mv := k.mv.mapVals fun _ m => { m with active := [], save := none, signals := [] } }

/-- Held requests of a partition's own units are dropped. -/
def State.dropHeld (s : State) (p : Nat) : State :=
  let mine (h : Held) : Bool := !h.req.remote &&
    (h.req.unit == 0x60 && h.part == p || (decide (h.req.unit < 0x60) && s.partOfUnit h.req.unit == some p))
  { s with mem := { s.mem with held := (s.mem.held.mapVals fun _ l => l.filter fun h => !mine h).filter fun e => !e.2.isEmpty } }

/-- R288: the peer contexts of the modules in the plan's COORDS section are reset. -/
def State.planContexts (s : State) : State :=
  if !s.rake.valid then s
  else
    let ids := (s.fab.tx.filterMap fun t => match t.key with
        | .uni id => some id
        | .group _ => none) ++ s.fab.rx.map fun t => match t.key with
        | .uni id => id
        | .group id _ => id
    ids.eraseDups.foldl (fun t id => t.ctxReset id false) s

/-- R288, R313: the quiesce phase. A FILL that waits ends (log entry 63). -/
def State.quiesce (s : State) (p : Nat) : State :=
  let t := if (s.part p).halted then s.endStreams p Err.streamAborted none else s.haltPart p Err.streamAborted none
  let slots := (t.rake.active.filter fun x => x.part == p).filterMap (·.slot)
  let t1 : State := { t with
    sync := t.sync.restoreProv p
    rake := { t.rake with
      queue := t.rake.queue.filter fun x => x.part != p, active := t.rake.active.filter fun x => x.part != p, heldData := [] } }
  let t2 := (t1.syncTest (inEpochGroup t.sync p)).cancelWatches fun i _ => slots.contains i || t.partWatch p i
  let t3 := (t2.part p).cores.foldl (fun u c => u.modCore c fun k => k.quiet ((s.part p).epoch + 1)) (t2.dropHeld p)
  let t4 := t3.modPart p fun x => { x with
    squash := none, commit := none, haltReq := none, attempt := 0, norms := x.normSave.getD x.norms, normSave := none
    mem := { x.mem with deferLog := x.mem.deferLog.filter fun r => !r.prov } }
  let t5 := t4.planContexts
  let t6 := match (t5.part p).snap.fill with
    | some f => t5.finish f.fn f.mbox Err.streamAborted []
    | none => t5
  (t6.modPart p fun x => { x with haltReq := none, snap := { x.snap with quiesced := true, fill := none } }).rejudge
    fun h => h.part == p

/-- R288: the values of a schedule record put into the partition. -/
def State.applyRec (s : State) (p : Nat) (r : SchedRec) : State :=
  let q (i : Nat) : Bool := r.groups.any fun g => g.1 == i / 256
  let new : Tab Word := r.groups.foldl (fun t g => g.2.foldl (fun u e => u.set 0 e.1 e.2) t) []
  let t : State := { s with sync := { s.sync with
    counters := mergeCounters q new s.sync.counters, provs := mergeCounters q new s.sync.provs } }
  let t1 := (t.part p).cores.foldl (fun u c => u.modCore c fun k =>
    let n := 3 * (c - (t.part p).first)
    { k with
      ve := { k.ve with draw := r.draws.get {} n, save := none }
      mv := (k.mv.mod {} 0 fun m => { m with draw := r.draws.get {} (n + 1), save := none }).mod {} 1 fun m =>
        { m with draw := r.draws.get {} (n + 2), save := none } }) t
  let t2 := t1.modPart p fun x => { x with
    epoch := r.epoch, attempt := 0, phases := r.phases
    streams := (List.range 64).foldl (fun u k =>
      let pos := r.streams.get 0 k
      u.set {} k { pos := pos, hasPos := pos != 0 }) [] }
  t2.syncTest q

/-- Pages copied one after the other. -/
def State.copyPages (p : Nat) : List (Nat × Nat) → State → MemRes × State
  | [], s => (.ok [], s)
  | q :: l, s =>
    let r := s.copyPage p q.1 q.2
    match r.1 with
    | .ok _ => State.copyPages p l r.2
    | o => (o, r.2)

/-- R288: every late buffer that a deadline's partials have been added to is zeroed. -/
def State.zeroLate (s : State) (p : Nat) : State :=
  let t := s.rake.lateSpans.foldl (fun u e => (u.drainPut p e.1 (List.replicate e.2 0)).2) s
  { t with rake := { t.rake with lateSpans := [] } }

/-- R288, R289: the load phase from local slot `i`. -/
def State.loadSlot (s : State) (p i : Nat) : Option Code × State :=
  let x := s.part p
  let t := s.modPart p fun y => { y with mem := { y.mem with deferLog := [] } }
  let at' := x.snap.slotAt i
  let pages := x.snapList.flatMap fun e => (List.range (e.2.1.half / 4096)).map fun k =>
    (at' + e.2.2 + 4096 * k, e.2.1.base + 4096 * k)
  let r := State.copyPages p pages t
  match r.1 with
  | .ok _ =>
    let h := r.2.drainGet p (at' + 0x1000) 16
    (match h.1 with
      | .ok hd =>
        let b := h.2.drainGet p (at' + 0x1000) (recSize (wordAt hd 8 2))
        (match b.1 with
          | .ok bs =>
            let q := SchedRec.ofBytes bs
            let u := (b.2.applyRec p q).zeroLate p
            (none, u.modPart p fun y => { y with
              norms := [], normSave := none
              snap := { y.snap with needBase := true, loaded := true, records := (q :: y.snap.records).take 3, lastCommit := none } })
          | .refused c => (some c, b.2)
          | _ => (some Err.restoreEpoch, b.2))
      | .refused c => (some c, h.2)
      | _ => (some Err.restoreEpoch, h.2))
  | .refused c => (some c, r.2)
  | _ => (some Err.restoreEpoch, r.2)

/-- R289: all SNAP regions and the record of `e` are present in local slot `i`. -/
def State.slotWhole (s : State) (p i : Nat) (e : Word) : Bool :=
  let x := s.part p
  let at' := x.snap.slotAt i
  let word (o : Nat) : Nat := leNat (s.mem.peek (at' + o) 8)
  leNat (s.mem.peek (at' + 0x1000) 4) == 0x534E5231 && word 0x1010 == e.toNat
    && x.snapList.all fun r => bit (word (16 * r.1)) 40 && word (16 * r.1 + 8) == e.toNat

/-- The area that this module holds for a client in a partition's memory: where a header with its ID and kind stands (log
entry 62). -/
def State.holderArea (s : State) (p kind client : Nat) : Option Nat :=
  let ks := (s.mem.bytes.map fun e => e.1 / 4096 * 4096).eraseDups
  ks.find? fun a =>
    ((s.part p).mem.regions.any fun e => e.2.valid && decide (e.2.base ≤ a) && decide (a + 4096 ≤ e.2.limit + 1))
      && leNat (s.mem.peek a 4) == 0x534E4131 && leNat (s.mem.peek (a + 4) 1) == kind && leNat (s.mem.peek (a + 8) 2) == client

/-- The directory of a slot at a device address: index, OFFSET, PRESENT, METHOD, EPOCH, and the bytes up to the next region. -/
def State.slotDir (s : State) (at' size : Nat) : List (Nat × Nat × Bool × Bool × Nat × Nat) :=
  let ws := (List.range 256).map fun i => (i, leNat (s.mem.peek (at' + 16 * i) 8), leNat (s.mem.peek (at' + 16 * i + 8) 8))
  let offs := (ws.map fun w => bits w.2.1 39 0).filter (· != 0)
  (ws.filter fun w => bits w.2.1 39 0 != 0).map fun w =>
    let o := bits w.2.1 39 0
    (w.1, o, bit w.2.1 40, bit w.2.1 41, w.2.2, (offs.filter (o < ·)).foldl min size - o)

/-- The job-complete slot of `e` in a holder area of `n` slots, with the SCOPE wanted if any. -/
def State.holderFind (s : State) (area n : Nat) (e : Word) (scope : Option Nat) : Option Nat :=
  (List.range n).find? fun k =>
    let o := area + 0x20 + 32 * k
    leNat (s.mem.peek o 8) == e.toNat && leNat (s.mem.peek (o + 8) 1) == 3
      && (scope.isNone || scope == some (leNat (s.mem.peek (o + 9) 1)))

/-- A delta body taken over the lines of a region (R285). -/
def deltaApply : Nat → Nat → List Byte → List Byte → List Byte
  | 0, _, _, r => r
  | n + 1, line, body, r =>
    if body.length < 4 then r
    else
      let w := leNat (body.take 4)
      let at' := line + w % 2 ^ 20
      let lit := w / 2 ^ 20
      let new := xorBytes ((r.drop (64 * at')).take (64 * lit)) ((body.drop 4).take (64 * lit))
      deltaApply n (at' + lit) (body.drop (4 + 64 * lit)) (patch r (64 * at') new)

/-- A delta record as it stands in a log: epoch, region, kind, body. -/
structure LogItem where
  epoch : Nat
  region : Nat
  kind : Nat
  body : List Byte
deriving DecidableEq, Repr

/-- The records of a log of `n` bytes at `a`. -/
def State.logItems (s : State) : Nat → Nat → Nat → List LogItem
  | 0, _, _ => []
  | fuel + 1, a, n =>
    if n < 64 then []
    else
      let w := leNat (s.mem.peek (a + 8) 8)
      let b := bits w 55 16
      { epoch := leNat (s.mem.peek a 8), region := bits w 7 0, kind := bits w 15 8, body := s.mem.peek (a + 64) b } ::
        s.logItems fuel (a + 64 + b) (n - (64 + b))

/-- The write of a region and its directory entry in a client's slot. -/
def regionSends (target slot i off : Nat) (e : Word) (delta : Bool) (src len : Nat) (data : List Byte) : Send × Send :=
  ({ dst := target, off := slot + off, src := src, len := len, data := data },
   { dst := target, off := slot + 16 * i, data := dirEntry off true delta e, fence := true })

/-- Bytes of the record in a slot. -/
def State.recLen (s : State) (at' : Nat) : Nat := recSize (leNat (s.mem.peek (at' + 0x1008) 2))

/-- What a whole list of region writes becomes: record, contents, directory, the addition (R290). -/
def serveList (target slot counter : Nat) (record : Option (Nat × Nat)) (rs : List (Send × Send)) : List Send :=
  ((record.map fun r => ({ dst := target, off := slot + 0x1000, src := r.1, len := r.2 } : Send)).toList)
    ++ rs.map (·.1) ++ rs.map (·.2) ++ [{ dst := target, off := 0, fence := true, add := some counter }]

/-- Regions of a holder slot sent as they stand. -/
def State.serveSlot (s : State) (at' size target slot counter : Nat) (e : Word) (first : Bool) (q : Bool → Bool) : List Send :=
  let ds := (s.slotDir at' size).filter fun d => d.2.2.1 && q d.2.2.2.1 && d.2.2.2.2.1 == e.toNat
  serveList target slot counter (if first then some (at' + 0x1000, s.recLen at') else none)
    (ds.map fun d => regionSends target slot d.1 d.2.1 e d.2.2.2.1 (at' + d.2.1) d.2.2.2.2.2 [])

/-- R290, SCOPE DELTA: delta regions rebuilt from the base and the job-complete records up to `e`. -/
def State.serveDelta (s : State) (area size target slot counter : Nat) (e : Word) (first : Bool) : Option (List Send) :=
  let tail := leNat (s.mem.peek (area + 0x88) 8)
  let items := s.logItems (tail / 64 + 1) (area + 4096 + 2 * size) tail
  let bases := (List.range 2).filter fun k =>
    leNat (s.mem.peek (area + 0x20 + 32 * k + 8) 1) == 3 && decide (leNat (s.mem.peek (area + 0x20 + 32 * k) 8) ≤ e.toNat)
  let best := bases.foldl (fun (b : Option Nat) k => match b with
    | none => some k
    | some j => if leNat (s.mem.peek (area + 0x20 + 32 * j) 8) < leNat (s.mem.peek (area + 0x20 + 32 * k) 8) then some k else b) none
  best.bind fun k =>
    let at' := area + 4096 + k * size
    let eb := leNat (s.mem.peek (area + 0x20 + 32 * k) 8)
    let reached := eb == e.toNat || items.any fun i => i.kind == 1 && i.epoch == e.toNat
    if !reached ∨ (first ∧ eb ≠ e.toNat) then none
    else
      let ds := (s.slotDir at' size).filter fun d => d.2.2.1 && d.2.2.2.1
      let rs := ds.map fun d =>
        let mine := items.filter fun i => i.kind == 0 && i.region == d.1 && decide (eb < i.epoch) && decide (i.epoch ≤ e.toNat)
        let old := s.mem.peek (at' + d.2.1) d.2.2.2.2.2
        regionSends target slot d.1 d.2.1 e true 0 0 (mine.foldl (fun r i => deltaApply (i.body.length / 4 + 1) 0 i.body r) old)
      some (serveList target slot counter (if first then some (at' + 0x1000, s.recLen at') else none) rs)

/-- R290: what a FILL_SERVE writes; none where this module holds no job-complete copy in that scope. -/
def State.serveSends (s : State) (p scope client target slot counter : Nat) (e : Word) (first : Bool) : Option (List Send) :=
  let sizeOf (a : Nat) : Nat := leNat (s.mem.peek (a + 0x18) 8)
  let whole (a n : Nat) (sc : Option Nat) (q : Bool → Bool) : Option (List Send) :=
    (s.holderFind a n e sc).map fun k => s.serveSlot (a + 4096 + k * sizeOf a) (sizeOf a) target slot counter e first q
  match scope with
  | 0 => (s.holderArea p 0 client).bind fun a => whole a 3 none fun delta => !delta
  | 1 => (s.holderArea p 1 client).bind fun a => s.serveDelta a (sizeOf a) target slot counter e first
  | _ => ((s.holderArea p 0 client).bind fun a => whole a 3 (some 1) fun _ => true).or
      ((s.holderArea p 1 client).bind fun a => whole a 2 none fun _ => true)

end Sys2Proof.Machine
end

