-- ==== Sys2Proof/Machine/SnapCmds.lean ====
section
/-! DEFINITION. Commands of the drain engine and of fills, and the admission of packets (R109, R189, R201, R280 to R290, R396). -/

namespace Sys2Proof.Machine

/-- PAGE_CAPTURE: one page; the writes that waited for it go on (R281, R282). -/
def execPageCapture (p : Nat) (s : State) : Step :=
  match s.nextPage p with
  | none => idle s
  | some q =>
    guarded (decide (p < 8)) s <|
      let r := s.capturePage p q.1 q.2
      match r.1 with
      | .ok _ => served (r.2.releaseHeld p)
      | .refused c => done (.refused c) (r.2.drainFail p c)
      | _ => idle s

/-- R274, R281: the schedule record and the directory put into the local slot, with rates and methods. -/
def State.closeSlot (s : State) (p : Nat) (d : Drain) : MemRes × State × Nat :=
  match (s.part p).snap.records.find? fun r => r.epoch == d.epoch with
  | none => (.refused Err.drainFailed, s, 0)
  | some q =>
    let t := s.modSnap p fun _ => (s.part p).rated d
    let x := t.part p
    let at' := x.snap.slotAt d.slot
    let r := t.drainPut p (at' + 0x1000) (q.bytes p x.cores.length)
    match r.1 with
    | .ok _ =>
      let w := r.2.drainPut p at' (x.directory d.epoch fun _ => true)
      (w.1, w.2, q.groups.length)
    | o => (o, r.2, 0)

/-- DRAIN_CAPTURE_DONE: the pages that are left are captured, the record is written, sending begins (R281). -/
def execDrainCaptureDone (p : Nat) (s : State) : Step :=
  match (s.part p).snap.drain with
  | none => idle s
  | some d =>
    guarded (decide (p < 8) && !d.sending) s <|
      let r := State.captureAll p (s.part p).uncaptured s
      match r.1 with
      | .refused c => done (.refused c) (r.2.drainFail p c)
      | .ok _ =>
        let d' := ((r.2.part p).snap.drain).getD d
        let w := r.2.closeSlot p d'
        (match w.1 with
          | .ok _ => served ((w.2.1.beginSending p d' w.2.2).releaseHeld p)
          | .refused c => done (.refused c) (w.2.1.drainFail p c)
          | _ => idle s)
      | _ => idle s

/-- DRAIN_WRITTEN: every write is performed; the agreement begins (R281, R283). -/
def execDrainWritten (p : Nat) (s : State) : Step :=
  match (s.part p).snap.drain with
  | none => idle s
  | some d =>
    guarded (decide (p < 8) && d.sending && (s.part p).snap.sends.isEmpty && s.outstanding (.drain p) == 0) s <|
      served (s.modSnap p fun x => { x with
        drain := none, slots := x.slots.mod {} d.slot fun t => { t with state := 2 }
        agree := some { epoch := d.epoch, good := true, slot := some d.slot, base := d.base } })

/-- AGREE_RESULT: the result of AGREE_COLL, an FP32 code; +0 makes the snapshot job-complete (R283). A value of 0 needs this
module's own partial 0. -/
def execAgreeResult (p : Nat) (v : BitVec 32) (s : State) : Step :=
  match (s.part p).snap.agree with
  | none => idle s
  | some a =>
    guarded (decide (p < 8)) s <|
      match a.good && v == 0, a.slot with
      | true, some k => served (s.modSnap p fun x => (x.complete' a k).nextSkip)
      | _, _ => served ((s.snapEvent p Err.snapAbandoned).modSnap p fun x => (x.discard a).nextSkip)

/-- R289: the filled slot becomes the last job-complete snapshot. -/
def State.fillDone (s : State) (p : Nat) (f : Fill) : State :=
  (s.modSnap p fun x => { x with
    fill := none, slots := x.slots.set {} f.slot { epoch := f.epoch, state := 3 }, latest := f.slot, lastComplete := f.epoch }).finish
      f.fn f.mbox 0 []

/-- FILL_LOAD: the counter has reached SOURCES (R289). -/
def execFillLoad (p : Nat) (s : State) : Step :=
  match (s.part p).snap.fill with
  | none => idle s
  | some f =>
    guarded (decide (p < 8) && decide (f.sources ≤ (s.sync.val false f.counter).toNat)) s <|
      if s.slotWhole p f.slot f.epoch then
        match s.loadSlot p f.slot with
        | (none, t) => served (t.fillDone p f)
        | (some c, t) => done (.refused c) ((t.modSnap p fun x => { x with fill := none }).refuse f.fn f.mbox c 0 (some p))
      else done (.refused Err.fillNoSource)
        ((s.modSnap p fun x => { x with fill := none }).refuse f.fn f.mbox Err.fillNoSource 0 (some p))

/-- What is left of a write after `n` bytes; none when nothing is. -/
def Send.rest (x : Send) (n : Nat) : Option Send :=
  let y := { x with off := x.off + n, src := x.src + n, len := x.len - n, data := x.data.drop n, fence := false }
  if y.len = 0 ∧ y.data.isEmpty then none else some y

/-- One packet of a drain write, of at most 8,192 bytes in class 3, or the addition that ends a fill (R280, R281, R290). -/
def State.sendOne (s : State) (p : Nat) (who : TxOrigin) (x : Send) : MemRes × State × Option Send :=
  if x.fence ∧ s.outstanding who ≠ 0 then (.held, s, some x)
  else match x.add with
    | some c => (.ok [], s.request (syncAddPkt s.fab.id x.dst c 1 0 1 s.sync.ft false 0) who, none)
    | none =>
      let r := if x.data.isEmpty then s.drainGet p x.src (min 8192 x.len) else (.ok (x.data.take 8192), s)
      match r.1 with
      | .ok bs =>
        let k : Pkt := { dst := x.dst, src := s.fab.id, cls := 3, ty := tyWrite, len := bs.length, offset := x.off, payload := bs }
        (.ok [], r.2.request k who, x.rest (max bs.length 1))
      | o => (o, r.2, some x)

/-- The next packet of the drain of partition `p` (R281, R284). -/
def State.admitDrain (s : State) (p : Nat) : Step :=
  match (s.part p).snap.sends with
  | [] => idle s
  | x :: l =>
    let r := s.sendOne p (.drain p) x
    match r.1 with
    | .ok _ => served (r.2.1.modSnap p fun y => if y.sends = x :: l then { y with sends := r.2.2.toList ++ l } else y)
    | .refused c => done (.refused c) (r.2.1.drainFail p c)
    | _ => idle s

/-- The next packet of a FILL_SERVE (R290). -/
def State.admitServe (s : State) (p client : Nat) : Step :=
  match (s.part p).snap.serves.find? fun v => v.client == client with
  | none => idle s
  | some v => match v.sends with
    | [] => idle s
    | x :: l =>
      let r := s.sendOne p (.serve p client) x
      match r.1 with
      | .ok _ => served (r.2.1.modSnap p fun y => { y with
          serves := y.serves.map fun u => if u = v then { u with sends := r.2.2.toList ++ l } else u })
      | .refused c => done (.refused c)
          ((r.2.1.modSnap p fun y => { y with serves := y.serves.filter fun u => u.client != client }).refuse v.fn v.mbox c 0 (some p))
      | _ => idle s

/-- A packet that a mover makes for its descriptor: a READ_REQ for remote source bytes, a WRITE or an ACCUMULATE (R109, R189, R396).
-/
def State.admitMove (s : State) (x : Move) : Step :=
  match s.activeOf x.c x.m x.seq with
  | none => idle s
  | some a =>
    let prov := (s.moveProv x.c a).isSome
    let base (id ty off len : Nat) (data : List Byte) : Pkt :=
      { dst := id, src := s.fab.id, cls := if a.d.class3 then 3 else 2, ty := ty, prov := prov
        epochLo := if prov then a.tag.toNat % 4 else 0, len := len, offset := off, payload := data }
    match a.stopped, a.readAt x.what, a.readSpan x with
    | false, some id, some (ad, n) =>
      if 8192 < n then idle s else served (s.request (base id tyReadReq ad n []) (.mover x.c x.m x.seq))
    | _, _, _ => idle s

/-- A WRITE or an ACCUMULATE of a mover to a remote destination. -/
def State.admitPut (s : State) (x : Move) (a : Active) (p : Put) : Step :=
  let acc := a.d.op == .accumulate
  let prov := (s.moveProv x.c a).isSome
  let head : List Byte := if acc && x.what == .elems then
      leBytes (2 * x.c + x.m) 1 ++ leBytes (a.d.dstTy.code + a.d.aux % 4 * 16) 1 ++ leBytes 0 2 ++ leBytes a.seq 4 ++ leBytes 0 8
    else []
  let k : Pkt := { dst := a.d.dstId, src := s.fab.id, cls := if a.d.class3 then 3 else 2
                   ty := if acc && x.what == .elems then tyAccumulate else tyWrite, prov := prov
                   epochLo := if prov then a.tag.toNat % 4 else 0, len := head.length + p.data.length, offset := p.addr
                   payload := head ++ p.data }
  if 8192 < k.len then idle s
  else
    let t := (s.modActive x.c x.m x.seq fun b => { b with covered := b.covered ++ [p.cover] }).modMover x.c x.m
      fun y => { y with cvt := y.cvt.or p.flags }
    served (t.request k (.mover x.c x.m x.seq))

/-- Source bytes of a move that are still to be read from another module. -/
def Active.unread (a : Active) (x : Move) : Bool :=
  match a.readAt x.what, a.readSpan x with
  | some _, some (ad, n) =>
    let key := match x.what with
      | .elems => ad
      | .scales => scaleKey ad
      | _ => givenKey ad
    (bufBytes a.buf key n).isNone
  | _, _ => false

/-- PACKET_ADMIT (R201). A mover's packets are those of its descriptor, unicast and within the bounds of R396 (R209). -/
def execPacketAdmit (a : Admit) (s : State) : Step :=
  match a with
  | .plain x who =>
    (match who with
      | .drain p => s.admitDrain p
      | .serve p c => s.admitServe p c
      | .mover .. => idle s
      | _ =>
        let y := { x with src := s.fab.id }
        guarded y.formOk s (served (s.request y who)))
  | .mover x =>
    match s.activeOf x.c x.m x.seq with
    | none => idle s
    | some b =>
      if b.unread x then s.admitMove x
      else if b.d.dstRemote then
        (match b.put x with
          | some p => s.admitPut x b p
          | none => idle s)
      else idle s

end Sys2Proof.Machine
end

