-- ==== Sys2Proof/Machine/ResetOps.lean ====
section
/-! DEFINITION. Resets: of a core, of a partition, of a function, compute, full, and of a block; power domains going off and on
(R313, R318 to R320, R335, R340 to R347, Tables 05-27, 06-11, 07-12, 13-1, 14-1 to 14-3). -/

namespace Sys2Proof.Machine

namespace Err
def blockBusy : Code := 0x0C01
def blockCode : Code := 0x0C02
def startFailed : Code := 0x0C03
def banked : Code := 0x0C04
def remoteResetRefused : Code := 0x0C05
def watchdog : Code := 0x0C06
def fwHash : Code := 0x0C07
def rstWrite : Code := 0x0C08
def quench : Code := 0x0B08
end Err

/-- Address of the reset block. -/
def rstBase : Nat := cfgBase + 0x1600000

/-- A reset or boot code recorded in RST_ERR_CODE and logged (R355). -/
def State.rstLog (s : State) (c : Code) (unit : Nat := unitHearth) (detail : Nat := 0) : State :=
  { s with rst := { s.rst with err := true, errCode := first s.rst.err s.rst.errCode c } }.log
    { code := c, unit := unit, addr := some rstBase, detail := detail }

/-- Table 05-27: core `c` after a compute reset. The local store is kept. -/
def State.resetCore (s : State) (c : Nat) : State :=
  { s with cores := s.cores.drop c }.cancelWatches fun i _ => i == 4064 + c

/-- R313: PARTITION_RESET of partition `p`. -/
def State.partitionReset (s : State) (p : Nat) : State :=
  let t := s.quiesce p
  let u := (t.part p).cores.foldl State.resetCore t
  u.modPart p fun x => { x with
    streams := [], halted := false, haltCode := 0, haltReq := none, snap := { x.snap with quiesced := false } }

/-- R318: what a function reset clears of function `f`: its binding stays. -/
def State.clearFn (s : State) (f : Nat) : State :=
  { s with host := { s.host with
    fns := s.host.fns.set {} f { bound := (s.fn f).bound }
    mboxes := s.host.mboxes.filter fun e => e.1 / 64 != f } }

/-- Partitions with a job. -/
def State.jobs (s : State) : List Nat := (List.range 8).filter fun p => (s.part p).job

/-- R342: reset of a virtual function, or, of the physical one, of every function. -/
def State.fnReset (s : State) (f : Nat) : State :=
  if f = 0 then
    let t := (List.range 9).foldl State.clearFn s
    let u : State := { t with host := { t.host with vfEnable := false } }
    u.jobs.foldl State.partitionReset u
  else
    let t := s.clearFn f
    match (t.fn f).bound with
    | some p => t.partitionReset p
    | none => t

/-- Reset kinds as RST_CAUSE numbers them, from strongest (R340). -/
def rstRank (kind : Nat) : Nat := if kind ≤ 1 then 4 else if kind = 2 then 3 else if kind = 3 then 2 else 1

/-- RST_CAUSE. -/
def Rst.cause (x : Rst) (kind source remote : Nat) : Rst := { x with kind := kind, source := source, remoteId := remote }

/-- R340: a reset in the stretch of a stronger one only lengthens it. -/
def State.stretches (s : State) (kind : Nat) : Bool :=
  match s.rst.stretch with
  | some x => decide (rstRank kind < rstRank x.kind)
  | none => false

/-- A stretch that lasts at least 1 ms from now. -/
def State.lengthen (s : State) : State :=
  { s with rst := { s.rst with stretch := s.rst.stretch.map fun x => { x with at' := s.now } } }

/-- R342, R346: everything but the hearth as a full reset leaves it: every other domain off. -/
def State.cleared (s : State) : State where
  opt := { links := (List.range 36).foldl (fun t k => if s.linkState k = 0 then t else t.set {} k { changed := s.now }) [] }
  pending := s.pending
  mem := { keyGen := s.mem.keyGen + 1 }
  sync := { clock := s.sync.clock }
  pwr := { quenchCause := s.pwr.quenchCause, on := s.pwr.on &&& 0x2000000000000000 }
  rst := s.rst
  mgmt := { s.mgmt with
    keys := [], mgmtKey := none, image := none, fw := none, fwFrom := none, thermal := false, dbgNonce := none, railBad := [], railLogged := [] }
  freeIdx := s.freeIdx
  answer := s.answer
  out := s.out

/-- R340, R341, R346: a full reset accepted. -/
def State.fullReset (s : State) (kind source remote : Nat) : State :=
  let again := match s.rst.stretch with
    | some x => decide (x.kind ≤ 1)
    | none => false
  let t := s.cleared
  { t with
    rst := { t.rst.cause kind source remote with
      stage := 0, blockBusy := none, attempt := none, fullSince := none, restarting := false, rstOutLow := true, fullMs := 0
      stretch := some { kind := kind, at' := s.now, standby := s.mgmt.standby } }
    mgmt := { t.mgmt with boots := if again then t.mgmt.boots else min 0xFFFF (t.mgmt.boots + 1) }
    out := t.out ++ if s.rst.rstOutLow then [] else [.pin "RST_OUT_N" false] }

/-- R343: partition `p` halted by a compute reset; its SUBMITs end when the dispatch processor restarts (R318). -/
def State.computeHalt (s : State) (p : Nat) : State :=
  let t := ((s.passEnds p).dropHeld p).cancelWatches fun i _ => s.partWatch p i
  let u := t.modPart p fun x => { x with
    halted := true, haltCode := Err.streamAborted, haltReq := none, commit := none, snap := { x.snap with fill := none, serves := [] } }
  let v := if (u.part p).snap.drain.isSome then (u.drainStop p).snapEvent p Err.drainFailed else u
  if (s.part p).halted then v else v.setEvents 1 fun f y => f == 0 || y.bound == some p

/-- R340, R342, R343: a compute reset accepted. Before full service it is performed as a full reset (Table 14-12). -/
def State.computeReset (s : State) (source remote : Nat) : State :=
  if s.stretches 2 then s.lengthen
  else if s.rst.stage ≠ 6 then s.fullReset 1 source remote
  else
    let slots := s.rake.active.filterMap (·.slot)
    let t : State := { s with rake := { s.rake with active := [], queue := [] } }
    let t1 := t.jobs.foldl State.computeHalt (t.cancelWatches fun i _ => slots.contains i)
    let t2 := (List.range 32).foldl State.resetCore t1
    let before := s.service
    { t2 with rst := { t2.rst.cause 2 source remote with
        stretch := some { kind := 2, at' := s.now }, restarting := true } }.serviceChange before

/-- A full reset accepted by a command or a message. -/
def State.acceptFull (s : State) (source remote : Nat) : State := s.fullReset 1 source remote

/-- R340, R342: a function reset. -/
def State.acceptFn (s : State) (f source : Nat) : State :=
  if s.stretches 3 then s.lengthen
  else { (s.fnReset f) with rst := (s.fnReset f).rst.cause 3 source 0 }

/-- Condition of Table 13-1 under which domain `d` may be off, or a block reset begin (Table 14-3). -/
def State.domainIdle (s : State) (d : Nat) : Bool :=
  let parts := (List.range 8).map s.part
  let covers (z : Zone) : Bool := parts.any fun x => x.mem.regions.any fun e => e.2.valid && zoneAt e.2.base == z
  if d < 32 then
    match s.partOfCore d with
    | some p => !(s.part p).job
    | none => true
  else if d < 40 then
    (parts.all fun x => (x.mem.panSplit.get {} (d - 32)).size == 0) && (d != 32 || !s.domainOn 58)
  else if d < 46 then !covers .hbm && parts.all fun x => x.mem.deferSize == 0
  else if d < 48 then !covers .lpddr
  else if d < 54 then !s.rake.valid || (linksOf (d - 48)).all fun k => !(s.rake.links.get {} k).used
  else if d = 54 then !s.rake.valid && (List.range 6).all fun e => !s.domainOn (48 + e)
  else if d = 55 then !s.rake.valid
  else if d = 56 then parts.all fun x => !x.job
  else false

/-- Contents lost as domain `d` goes off (Table 06-11). -/
def State.domainOff (s : State) (d : Nat) : State :=
  let t : State := { s with pwr := { s.pwr with on := s.pwr.on &&& ~~~BitVec.ofNat 64 (2 ^ d) } }
  if d < 32 then { t.resetCore d with mem := t.mem.wipe (16 + d) }
  else if d < 48 then { t with mem := t.mem.wipe (d - 32), mcs := t.mcs.drop (d - 32) }
  else if d < 54 then
    let e := d - 48
    let u := (linksOf e).foldl (fun u k => (u.linkDown k).modLink k fun l => { l with lanes := [], cal := 0 }) t
    { u with opt := { u.opt with engines := u.opt.engines.drop e } }
  else if d = 54 then
    let u := (List.range 36).foldl (fun u k => u.linkDown k) t
    { u with fab := { u.fab with routes := [], groups := [], tx := [], rx := [], ports := [], parked := [], reads := [], inbound := [] } }
  else t

/-- R347, R348, Table 14-6: the stage lets domain `d` be on. -/
def State.stageAllows (s : State) (d : Nat) : Bool :=
  let g := s.rst.stage
  if s.rst.stretch.isSome ∨ s.mgmt.standby ∨ s.rst.quenched ∨ !s.rst.supply then d == 61
  else if 57 ≤ d ∧ d ≤ 61 then true
  else if g = 7 then false
  else if d = 0 ∨ d = 32 then true
  else if 33 ≤ d ∧ d < 48 then decide (3 ≤ g)
  else if d < 33 ∨ d = 56 then decide (4 ≤ g)
  else decide (5 ≤ g)

/-- A memory controller whose domain is asked for begins to train (R153, R347). -/
def State.startTraining (s : State) (d : Nat) : State :=
  if 40 ≤ d ∧ d < 48 ∧ !s.domainOn d ∧ s.pwr.req.getLsbD d ∧ s.stageAllows d then
    s.modMc (d - 32) fun m => { m with training := true }
  else s

/-- Domain `d` may come on: an LPDDR6 controller once its lines hold zero under its keys (R153, R320). -/
def State.domainReady (s : State) (d : Nat) : Bool :=
  s.pwr.req.getLsbD d && !s.domainOn d && s.stageAllows d
    && (d < 40 || 48 ≤ d || (s.mc (d - 32)).training && (d < 46 || (s.mc (d - 32)).encReady))

/-- Domain `d` comes on: a slice is ready, a controller is trained (Table 06-11, R153). -/
def State.domainUp (s : State) (d : Nat) : State :=
  let t : State := { s with pwr := { s.pwr with on := s.pwr.on ||| BitVec.ofNat 64 (2 ^ d) } }
  if 32 ≤ d ∧ d < 48 then t.modMc (d - 32) fun m => { m with online := true, training := false } else t

/-- Domains requested. -/
def State.askDomains (s : State) (ds : List Nat) : State :=
  ds.foldl State.startTraining
    { s with pwr := { s.pwr with req := ds.foldl (fun v d => v ||| BitVec.ofNat 64 (2 ^ d)) s.pwr.req } }

/-- Table 14-3: block `b` is idle; none for a reserved value. -/
def State.blockIdle (s : State) (b : Nat) : Option Bool :=
  if b < 0x20 then
    some (match s.partOfCore b with
      | none => true
      | some p => !(s.part p).job
          || ((s.part p).halted && ([0, 1] : List Nat).all fun m => (s.mover b m).active.isEmpty))
  else if b < 0x2E then some (s.domainIdle (b - 0x20 + 40))
  else if b = 0x2E then some (s.rake.active.isEmpty && s.rake.queue.isEmpty)
  else none

/-- Table 14-3: a block reset begins. -/
def State.blockBegin (s : State) (b source : Nat) : State :=
  let t : State := { s with rst := { s.rst.cause 4 source 0 with blockBusy := some b } }
  if b < 0x20 then t.resetCore b
  else if b < 0x28 then
    let m := b - 0x20 + 8
    { t with mem := t.mem.wipe m }.modMc m fun x => { x with online := false, training := true, encReady := false }
  else if b < 0x2E then
    let e := b - 0x28
    let u := (linksOf e).foldl (fun u k => (u.linkDown k).modLink k fun l => { l with cal := 0 }) t
    { u with opt := { u.opt with engines := u.opt.engines.mod {} e fun x => { x with calDone := false } } }
  else
    let u := (List.range 8).foldl (fun v p => v.modPart p fun x => { x with norms := [] }) t
    { u with rake := { u.rake with err := false, errCode := 0, elems := 0, lateDropped := 0, stale := 0 } }

/-- R345: a block reset asked for: refused, or begun. -/
def State.blockReset (s : State) (b source : Nat) : Except Code State :=
  if s.stretches 4 then .ok s.lengthen
  else match s.blockIdle b with
    | none => .error Err.blockCode
    | some idle => if idle && s.rst.blockBusy.isNone then .ok (s.blockBegin b source) else .error Err.blockBusy

/-- R345: the block has retrained or calibrated again. -/
def State.blockDone (s : State) (b : Nat) : Bool :=
  if 0x28 ≤ b ∧ b < 0x2E then (s.opt.engines.get {} (b - 0x28)).calDone else true

/-- R345: the end of a block reset. -/
def State.blockEnd (s : State) (b : Nat) : State :=
  let t : State := { s with rst := { s.rst with blockBusy := none } }
  if 0x20 ≤ b ∧ b < 0x28 then
    t.modMc (b - 0x20 + 8) fun x => { x with online := true, training := false, encReady := decide (0x26 ≤ b) }
  else t

/-- BOOT_RETAIN after BANK_CLEAR (R353). -/
def State.bankClear (s : State) : State := { s with rst := { s.rst with failCount := 0, banked := false } }

/-- R335, R336: a quench. -/
def State.quenchBy (s : State) (cause : Nat) : State :=
  let t := s.log { code := Err.quench, unit := unitHearth, addr := some (cfgBase + 0x1500024), detail := 0 }
  let u := { t with pwr := { t.pwr with quenchCause := cause }, mgmt := { t.mgmt with quench := true, standby := false } }.fullReset
    1 2 0
  { u with rst := { u.rst with quenched := true } }

/-- R350: a start attempt fails: counted, logged, and the module reset. -/
def State.startFail (s : State) : State :=
  let st := s.rst.stage
  let n := min 3 (s.rst.failCount + 1)
  let t := s.rstLog Err.startFailed unitHearth st
  let u : State := { t with rst := { t.rst with lastStage := st, failCount := n, banked := t.rst.banked || decide (3 ≤ n) } }
  (if 3 ≤ n then u.rstLog Err.banked else u).fullReset 1 6 0

end Sys2Proof.Machine
end

