-- ==== Sys2Proof/Machine/HostOps.lean ====
section
/-! DEFINITION. Mailboxes: arming, the checks that every command passes, argument forms, endings (R299 to R306, Tables 12-6 to
12-8). -/

namespace Sys2Proof.Machine

namespace Err
def mbxOpcode : Code := 0x0A01
def mbxForm : Code := 0x0A02
def noSession : Code := 0x0A03
def featureOff : Code := 0x0A04
def serviceState : Code := 0x0A06
def partitionBusy : Code := 0x0A07
def partitionForm : Code := 0x0A08
def dmaFault : Code := 0x0A0D
def resumeState : Code := 0x0A0E
def bar2Boundary : Code := 0x0A0F
end Err

/-- A field of the arguments: word, lowest and highest bit, range, and what it must be a multiple of. -/
structure Fld where
  w : Nat
  lo : Nat
  hi : Nat
  min : Nat := 0
  max : Nat
  unit : Nat := 1
deriving DecidableEq, Repr

/-- A field without a range of its own. -/
def afld (w lo hi : Nat) : Fld := { w := w, lo := lo, hi := hi, max := 2 ^ (hi - lo + 1) - 1 }

/-- A whole word. -/
def whole (w : Nat) : Fld := afld w 0 63

/-- Whole words from `w` on. -/
def wholes (w n : Nat) : List Fld := (List.range n).map fun i => whole (w + i)

/-- Argument words and fields of a command; `n` is the COUNT of the commands that carry entries (Table 12-8). -/
def argForm (op n : Nat) : Nat × List Fld :=
  let part := afld 0 0 2
  match op with
  | 0x01 => (5, wholes 0 4 ++ [afld 4 0 10, afld 4 11 11])
  | 0x02 => (1, [{ afld 0 0 31 with min := 1 }, { afld 0 32 39 with min := 1, max := 247 }])
  | 0x03 => (1, [afld 0 0 47])
  | 0x10 => (2, [whole 0, afld 1 0 31])
  | 0x11 => (2, [whole 0, { afld 1 0 5 with min := 1, max := 61 }])
  | 0x12 => (0, [])
  | 0x13 => (1, [{ afld 0 0 1 with max := 2 }, afld 0 8 15])
  | 0x14 => (1, [afld 0 0 15])
  | 0x20 => (1, [part, afld 0 4 8, { afld 0 12 14 with max := 5 }, afld 0 15 15])
  | 0x21 => (1, [{ afld 0 0 3 with min := 1, max := 8 }, afld 0 4 6, afld 0 7 7])
  | 0x22 => (1, [part])
  | 0x23 => (4, [part, whole 1, whole 2, { afld 3 0 47 with unit := 4096 }])
  | 0x24 => (5, [part, afld 0 8 15] ++ wholes 1 4)
  | 0x25 => (5, [afld 0 0 11] ++ wholes 1 4)
  | 0x30 => (1, [afld 0 0 47])
  | 0x31 => (2 + 2 * n, [afld 0 0 13, { afld 0 16 23 with min := 1, max := 240 }] ++ wholes 2 (2 * n))
  | 0x32 => (2 + 2 * n, [afld 0 0 11, { afld 0 16 23 with min := 1, max := 240 }] ++ wholes 2 (2 * n))
  | 0x33 => (1, [afld 0 0 13, afld 0 16 16])
  | 0x34 => (1, [afld 0 0 13, afld 0 14 14])
  | 0x35 => (2, [{ afld 0 0 5 with max := 35 }, afld 1 0 53])
  | 0x40 => (3, [part, afld 0 8 13, afld 0 14 14, { afld 1 0 47 with unit := 64 }, { afld 2 0 47 with unit := 64 }])
  | 0x41 => (4, [afld 0 0 0, afld 0 1 1, afld 0 16 31, { whole 1 with unit := 64 }, { afld 2 0 47 with unit := 64 },
      { afld 3 0 31 with min := 64, unit := 64 }])
  | 0x50 => (40, [part] ++ wholes 1 7 ++ (List.range 32).flatMap fun i => (List.range 8).flatMap fun j =>
      [afld (8 + i) (8 * j) (8 * j), { afld (8 + i) (8 * j + 1) (8 * j + 2) with max := 2 }])
  | 0x51 => (3, [part, afld 1 0 15, whole 2])
  | 0x52 => (3, [part, whole 1, whole 2])
  | 0x53 => (3, [part, afld 0 16 31, { afld 0 32 39 with min := 1, max := 8 }, whole 1, whole 2])
  | 0x54 => (4, [part, { afld 0 4 5 with max := 2 }, afld 0 6 6, afld 0 16 29, afld 0 32 45, afld 1 0 43, whole 2, afld 3 0 15])
  | 0x55 => (1, [part, afld 0 16 29])
  | _ => (1, [part])

/-- Opcodes of Table 12-7. -/
def mbxOpcodes : List Nat :=
  [0x01, 0x02, 0x03, 0x10, 0x11, 0x12, 0x13, 0x14, 0x20, 0x21, 0x22, 0x23, 0x24, 0x25, 0x30, 0x31, 0x32, 0x33, 0x34, 0x35, 0x40,
   0x41, 0x50, 0x51, 0x52, 0x53, 0x54, 0x55, 0x56]

/-- Byte offset of a field in its mailbox. -/
def Fld.off (f : Fld) : Nat := 0x80 + 8 * f.w + f.lo / 8

/-- The field's value is one that it may hold. -/
def Fld.ok (f : Fld) (args : Nat → Nat) : Bool :=
  let v := bits (args f.w) f.hi f.lo
  decide (f.min ≤ v) && decide (v ≤ f.max) && v % f.unit == 0

/-- Bits of word `w` that no field lists. -/
def unlisted (fs : List Fld) (w : Nat) : List Nat :=
  (List.range 64).filter fun b => !(fs.any fun f => f.w == w && decide (f.lo ≤ b) && decide (b ≤ f.hi))

/-- R299, R306: byte offset of the first faulty field of the arguments. -/
def badField (n : Nat) (fs : List Fld) (args : Nat → Nat) : Option Nat :=
  let a := (fs.filter fun f => !f.ok args).map Fld.off
  let b := (List.range n).flatMap fun w =>
    if (fs.any fun f => f.w == w && f.lo == 0 && f.hi == 63) then []
    else ((unlisted fs w).filter fun i => bit (args w) i).map fun i => 0x80 + 8 * w + i / 8
  match a ++ b with
  | [] => none
  | x :: l => some (l.foldl min x)

/-- R305: the command is listed for the service state. -/
def serviceLists (op service : Nat) : Bool :=
  if op ∈ [0x01, 0x02, 0x11, 0x12, 0x13] then true
  else if op = 0x10 then service == 0 || service == 3
  else service == 1

/-- R305: a virtual function may issue the command. -/
def virtualMay (op : Nat) : Bool := decide (op ∈ [0x01, 0x02, 0x03, 0x22, 0x25, 0x40, 0x41])

/-- R306, R309: what a virtual function names is its own. -/
def State.ownNamed (s : State) (f op : Nat) (args : Nat → Nat) : Bool :=
  if op = 0x01 ∨ op = 0x02 then true
  else match (s.fn f).bound with
    | none => false
    | some p =>
      if op = 0x22 ∨ op = 0x40 then args 0 % 8 == p
      else if op = 0x25 then
        let sp := s.sync.splits.get {} p
        decide (sp.first ≤ args 0 % 4096) && decide (args 0 % 4096 < sp.first + sp.count)
      else true

/-- R303, Table 12-6: the feature bits that a command needs. -/
def State.needs (s : State) (f op : Nat) (irq : Bool) (args : Nat → Nat) : List Nat :=
  if op = 0x01 then (if irq then [1] else [])
  else [0] ++ (if irq then [1] else []) ++
    (match op with
      | 0x02 => [2]
      | 0x03 => if 0 < (s.fn f).bar2Size then [4] else []
      | 0x21 => [5]
      | 0x25 => if bits (args 1) 5 4 = 3 then [2] else []
      | 0x41 => [3]
      | _ => [])

/-- R303 to R306: the code and DETAIL with which a command is refused as it is taken. -/
def State.mbxRefusal (s : State) (f op len : Nat) (irq : Bool) (args : Nat → Nat) : Option (Code × Nat) :=
  let fm := argForm op (bits (args 0) 23 16)
  if !mbxOpcodes.contains op then some (Err.mbxOpcode, 0)
  else if op ≠ 0x01 ∧ !(s.fn f).session then some (Err.noSession, 0)
  else if !serviceLists op s.service ∨ (f ≠ 0 ∧ s.service ≠ 1) then some (Err.serviceState, 0)
  else if f ≠ 0 ∧ (!virtualMay op ∨ !s.ownNamed f op args) then some (Err.notPermitted, 0)
  else if !((s.needs f op irq args).all fun b => (s.fn f).agreed.getLsbD b || (op == 0x01 && s.host.offered.getLsbD b)) then
    some (Err.featureOff, 0)
  else if len ≠ 8 * fm.1 then some (Err.mbxForm, 0x00A)
  else (badField fm.1 fm.2 args).map fun o => (Err.mbxForm, o)

/-- The PCI Express link is up and the module answers at BAR0. -/
def State.hostUp (s : State) : Bool :=
  s.rst.supply && !s.rst.quenched && !s.mgmt.standby &&
    (match s.rst.stretch with
      | some x => x.kind == 2
      | none => true)

/-- Function `f` answers: the virtual ones only where they are enabled, and not before full service (R305, R348). -/
def State.fnOn (s : State) (f : Nat) : Bool := s.hostUp && (f == 0 || (decide (f < 9) && s.host.vfEnable && s.rst.stage == 6))

/-- `n` bytes of a mailbox from `off`, as a number. -/
def Mbox.num (x : Mbox) (off n : Nat) : Nat := leNat (x.bytes.getList 0 off n)

/-- Partition that a command's log record names. -/
def partNamed (op : Nat) (w0 : Nat) : Option Nat :=
  if op ∈ [0x20, 0x22, 0x23, 0x24, 0x40, 0x50, 0x51, 0x52, 0x53, 0x54, 0x55, 0x56] then some (w0 % 8) else none

/-- R300, R305, R306: the dispatch processor takes the command of an armed mailbox, and refuses it or lets it run. -/
def State.takeCommand (s : State) (f m seq : Nat) : Step :=
  let x := s.mbox f m
  let op := x.num 4 2
  let len := x.num 0xA 2
  let args := (List.range (min (len / 8) 496)).map fun i => BitVec.ofNat 64 (x.num (0x80 + 8 * i) 8)
  let y := { x with
    seq := seq, doneSeq := seq, state := 1, op := op, irq := bit (x.num 6 2) 0, vector := x.num 8 2 % 2048, args := args
    begun := false, since := s.now, order := s.host.arms, armed := none }
  let t : State := { s.modMbox f m (fun _ => y) with host := { (s.modMbox f m fun _ => y).host with arms := s.host.arms + 1 } }
  match s.mbxRefusal f op len y.irq y.arg with
  | some (c, d) => done (.refused c) (t.refuse f m c d (partNamed op (y.arg 0)))
  | none => served t

/-- A host write discarded and counted (R300). -/
def State.discard (s : State) (f : Nat) : State := s.modFn f fun x => { x with discards := x.discards + 1 }

/-- No command armed earlier waits to start (R301). -/
def State.inTurn (s : State) (x : Mbox) : Bool :=
  s.host.mboxes.all fun e => e.2.state != 1 || e.2.begun || decide (x.order ≤ e.2.order)

/-- The row of a mailbox command: it runs in the mailbox and has not begun. -/
def State.mboxRow (s : State) (f m op : Nat) (run : Mbox → State → Step) : Step :=
  let x := s.mbox f m
  guarded (decide (f < 9 ∧ m < 64) && x.state == 1 && x.op == op && !x.begun && s.inTurn x && !s.rst.restarting) s (run x s)

/-- The same, for a command that may have begun and be waiting. -/
def State.mboxAgain (s : State) (f m op : Nat) (run : Mbox → State → Step) : Step :=
  let x := s.mbox f m
  guarded (decide (f < 9 ∧ m < 64) && x.state == 1 && x.op == op && (x.begun || s.inTurn x) && !s.rst.restarting) s (run x s)

/-- A command begins and waits. -/
def State.beginCmd (s : State) (f m : Nat) : State := s.modMbox f m fun x => { x with begun := true, since := s.now }

/-- A command ends with success. -/
def State.okCmd (s : State) (f m : Nat) (res : List Byte := []) : Step := done (.ok res) (s.finish f m 0 res)

/-- A command refused: logged, and ended with the code. -/
def State.noCmd (s : State) (f m : Nat) (c : Code) (detail : Nat := 0) (p : Option Nat := none) (addr : Option Nat := none) : Step :=
  done (.refused c) (s.refuse f m c detail p addr)

/-- A command ended with a code that its unit has logged. -/
def State.endCmd (s : State) (f m : Nat) (c : Code) (detail : Nat := 0) : Step := done (.refused c) (s.finish f m c [] detail)

/-- Domains that a command needs are asked for; it completes once all are on (R320). -/
def State.whenOn (s : State) (f m : Nat) (ds : List Nat) (run : State → Step) : Step :=
  if ds.all s.domainOn then run s else done .held ((s.askDomains ds).beginCmd f m)

end Sys2Proof.Machine
end

