-- ==== Sys2Proof/Machine/HostCmds.lean ====
section
/-! DEFINITION. Mailbox commands of the host interface, of the tables of the fabric and of snapshots (R299 to R314, R276, R277, R288 to
R290, Tables 12-7 and 12-8). -/

namespace Sys2Proof.Machine

/-- R300: the 4-byte write of SEQ at offset 0x000 of a mailbox; `word` is what is written. While the dispatch processor is
restarting, an armed mailbox waits (R318). -/
def State.armMbox (s : State) (f m word : Nat) : Step :=
  let x := s.mbox f m
  let seq := word % 2 ^ 16
  if x.state = 1 ∨ x.armed.isSome then served (s.discard f)
  else if seq = x.doneSeq then served s
  else
    let t := s.modMbox f m fun y => { y with bytes := y.bytes.setList 0 0 (leBytes seq 4) }
    if s.rst.restarting then
      let u := t.modMbox f m fun y => { y with armed := some seq, order := s.host.arms }
      served { u with host := { u.host with arms := s.host.arms + 1 } }
    else t.takeCommand f m seq

/-- MAILBOX_ARM: the dispatch processor takes the command of the mailbox (R300). -/
def execMailboxArm (f m seq : Nat) (s : State) : Step :=
  guarded (decide (f < 9 ∧ m < 64 ∧ seq < 2 ^ 16) && s.fnOn f) s (s.armMbox f m seq)

/-- MAILBOX_DISCARD (R300). -/
def execMailboxDiscard (f m off : Nat) (s : State) : Step :=
  let x := s.mbox f m
  guarded (decide (f < 9 ∧ m < 64 ∧ off < 4096) && s.fnOn f
    && (x.state == 1 || x.armed.isSome || decide (off < 4) || (decide (0x10 ≤ off) && decide (off < 0x80)))) s
    (served (s.discard f))

/-- Four words as a 256-bit value. -/
def wide (w : Nat → Nat) : BitVec 256 := BitVec.ofNat 256 (w 0 + w 1 * 2 ^ 64 + w 2 * 2 ^ 128 + w 3 * 2 ^ 192)

/-- HELLO (R303, Table 12-8). -/
def execHello (f m : Nat) (s : State) : Step :=
  s.mboxRow f m 0x01 fun x t =>
    let a := wide x.arg &&& t.host.offered
    let u := t.modFn f fun y => { y with
      session := true, agreed := a, evVector := bits (x.arg 4) 10 0, evEn := bit (x.arg 4) 11 }
    u.okCmd f m (leBytes a.toNat 32 ++ wordBytes [1 + f * 2 ^ 8])

/-- NOTIFY_WAIT begins; what is queued for its mailbox is delivered at once (R314). -/
def execNotifyWait (f m : Nat) (s : State) : Step :=
  s.mboxRow f m 0x02 fun _ t => served ((t.beginCmd f m).deliverNotes f m)

/-- NOTIFY_TIMEOUT (R314). -/
def execNotifyTimeout (f m : Nat) (s : State) : Step :=
  s.mboxAgain f m 0x02 fun x t =>
    guarded (x.begun && decide (x.since + 1000 * bits (x.arg 0) 31 0 ≤ t.now)) s (t.okCmd f m (wordBytes [0]))

/-- Bytes of a BAR2 window (Table 12-1). -/
def Fn.window (x : Fn) : Nat := 2 ^ (30 + x.bar2Size)

/-- BAR2_MAP (R315). -/
def execBar2Map (f m : Nat) (s : State) : Step :=
  s.mboxRow f m 0x03 fun x t =>
    if x.arg 0 % (t.fn f).window = 0 then (t.modFn f fun y => { y with bar2Base := x.arg 0 }).okCmd f m
    else t.noCmd f m Err.mbxForm 0x080

/-- R308: everything of the job of partition `p` released: cached lines are written back and dropped, region entries, sync groups,
barriers and watches end, the deferral log is emptied. -/
def State.jobRelease (s : State) (p : Nat) : State :=
  let sp := s.sync.splits.get {} p
  let mine (g : Group) : Bool := g.valid && g.part == p
  let t := (s.flushPart p true).cancelWatches fun i _ => decide (sp.first ≤ i) && decide (i < sp.first + sp.count)
  let u : State := { t with sync := { t.sync with
    barriers := t.sync.barriers.foldl (fun l e =>
      if e.2.valid && mine (t.sync.group e.2.a) then l.set {} e.1 { e.2 with valid := false } else l) t.sync.barriers
    groups := t.sync.groups.foldl (fun l e => if mine e.2 then l.set {} e.1 { e.2 with valid := false } else l) t.sync.groups } }
  u.modPart p fun x => { x with mem := { x.mem with
    regions := x.mem.regions.foldl (fun l e => l.set {} e.1 { e.2 with valid := false, side := false }) x.mem.regions, deferLog := [] } }

/-- R307: partition `p` and its job dissolved. -/
def State.dissolve (s : State) (p : Nat) : State :=
  let t := (s.part p).cores.foldl (fun u c => u.modCore c fun k => { k.quiet ((s.part p).epoch + 1) with run := .idle }) (s.jobRelease p)
  let t1 := match (t.part p).snap.fill with
    | some f => t.finish f.fn f.mbox Err.streamAborted []
    | none => t
  let u := t1.modPart p fun x => { ({} : Part) with
    mem := { x.mem with regions := [], deferBase := 0, deferSize := 0, deferLog := [], panSplit := [] }
    snap := { x.snap with drain := none, sends := [], agree := none, skips := [], records := [], fill := none, quiesced := false } }
  { u with sync := { u.sync with splits := u.sync.splits.drop p } }

/-- PARTITION_CONFIG (R307, R320). -/
def execPartitionConfig (f m : Nat) (s : State) : Step :=
  s.mboxAgain f m 0x20 fun x t =>
    let w := x.arg 0
    let p := w % 8
    let first := bits w 8 4
    let n := 2 ^ bits w 14 12
    let others := (List.range 8).filter fun q => q != p && (List.range n).any fun i => (t.part q).holds (first + i)
    if !bit w 15 then
      if (t.part p).busy then t.noCmd f m Err.partitionBusy 0 (some p) else (t.dissolve p).okCmd f m
    else if (t.part p).job ∨ others.any (fun q => (t.part q).job) then t.noCmd f m Err.partitionBusy 0 (some p)
    else if first % n ≠ 0 ∨ 32 < first + n ∨ !others.isEmpty then t.noCmd f m Err.partitionForm 0 (some p)
    else t.whenOn f m ((List.range n).map (first + ·)) fun u =>
      (u.modPart p fun y => { y with
        valid := true, first := first, log2 := bits w 14 12, energy := 0, streamEnergy := [] }).okCmd f m

/-- PARTITION_BIND (R309). -/
def execPartitionBind (f m : Nat) (s : State) : Step :=
  s.mboxRow f m 0x21 fun x t =>
    let w := x.arg 0
    (t.modFn (w % 16) fun y => { y with bound := if bit w 7 then some (bits w 6 4) else none }).okCmd f m

/-- PARTITION_RESET (R313). -/
def execPartitionReset (f m : Nat) (s : State) : Step :=
  s.mboxRow f m 0x22 fun x t => (t.partitionReset (x.arg 0 % 8)).okCmd f m

/-- REGION_SET (R131, R132). -/
def execRegionSet (f m : Nat) (s : State) : Step :=
  s.mboxRow f m 0x24 fun x t =>
    let p := x.arg 0 % 8
    let i := bits (x.arg 0) 15 8
    match t.regionPut p i (x.arg 1) (x.arg 2) (x.arg 3) (x.arg 4) with
    | .ok u => u.okCmd f m
    | .error c => (t.memRegRefuse { unit := unitDispatch } (some p) (pmemBase p + 0x1000 + 32 * i) c).endCmd f m c

/-- The partition whose WATCH_SPLIT holds a slot. -/
def Sync.splitOwner (x : Sync) (slot : Nat) : Option Nat :=
  (List.range 8).find? fun p =>
    let sp := x.splits.get {} p
    decide (sp.first ≤ slot) && decide (slot < sp.first + sp.count)

/-- WATCH_SET (R164 to R166). -/
def execWatchSet (f m : Nat) (s : State) : Step :=
  s.mboxRow f m 0x25 fun x t =>
    let slot := x.arg 0
    let p := t.sync.splitOwner slot
    let w (i : Nat) : Word := BitVec.ofNat 64 (x.arg i)
    match t.watchWrite { unit := unitDispatch, part := p } slot (w 1) (w 2) (w 3) (w 4) (.part (p.getD 8)) none with
    | (none, u) => u.okCmd f m
    | (some c, u) => u.endCmd f m c

/-- Entries of two words each written one after the other; the first that is refused ends it, earlier ones stay. -/
def State.putEntries (put : State → Nat → BitVec 128 → Except Code State) (off : Nat → Nat) :
    List (Nat × BitVec 128) → State → Option Code × State
  | [], s => (none, s)
  | e :: l, s =>
    match put s e.1 e.2 with
    | .ok t => State.putEntries put off l t
    | .error c => (some c, s.fabRegRefuse { unit := unitDispatch } (off e.1))

/-- Address offset of a route entry and of a group entry. -/
def routeOff (d : Nat) : Nat := 0x40000 + 16 * d
def groupOff (g : Nat) : Nat := 0x80000 + 16 * g

/-- ROUTE_SET and MCAST_SET: COUNT entries from FIRST on, in a table of `size`. -/
def State.tableRow (s : State) (f m op size : Nat) (put : State → Nat → BitVec 128 → Except Code State) (off : Nat → Nat) : Step :=
  s.mboxRow f m op fun x t =>
    let first := x.arg 0 % size
    let n := bits (x.arg 0) 23 16
    if size < first + n then t.noCmd f m Err.mbxForm 0x080
    else
      let l := (List.range n).map fun i => (first + i, BitVec.ofNat 128 (x.arg (2 + 2 * i) + x.arg (3 + 2 * i) * 2 ^ 64))
      match State.putEntries put off l t with
      | (none, u) => u.okCmd f m
      | (some c, u) => u.endCmd f m c

/-- ROUTE_SET (R197). -/
def execRouteSet (f m : Nat) (s : State) : Step := s.tableRow f m 0x31 (2 ^ 14) State.routePut routeOff

/-- MCAST_SET (R208). -/
def execMcastSet (f m : Nat) (s : State) : Step := s.tableRow f m 0x32 (2 ^ 12) State.groupPut groupOff

/-- FENCE of a route entry written (R211). -/
def State.fenceSet (s : State) (d : Nat) (on : Bool) : State :=
  { s with fab := { s.fab with routes := s.fab.routes.mod {} d fun r => { r with fence := on } } }

/-- FENCE_SET (R211): SET is 1. -/
def execFenceSet (f m : Nat) (s : State) : Step :=
  s.mboxRow f m 0x33 fun x t => guarded (bit (x.arg 0) 16) s ((t.fenceSet (x.arg 0 % 2 ^ 14) true).okCmd f m)

/-- FENCE_CLEAR (R211): SET is 0. -/
def execFenceClear (f m : Nat) (s : State) : Step :=
  s.mboxRow f m 0x33 fun x t => guarded (!bit (x.arg 0) 16) s ((t.fenceSet (x.arg 0 % 2 ^ 14) false).okCmd f m)

/-- CTX_RESET (R207). -/
def execCtxReset (f m : Nat) (s : State) : Step :=
  s.mboxRow f m 0x34 fun x t => (t.ctxReset (x.arg 0 % 2 ^ 14) (bit (x.arg 0) 14)).okCmd f m

/-- LANE_ASSIGN (R245). -/
def execLaneAssign (f m : Nat) (s : State) : Step :=
  s.mboxRow f m 0x35 fun x t =>
    let k := x.arg 0
    match t.assignPut k (x.arg 1) with
    | .ok u => u.okCmd f m
    | .error c => (t.optRegRefuse { unit := unitDispatch } (0x10008 + 0x100 * k) c).endCmd f m c

/-- R312: a stream's position, if it has one. -/
def Stream.position (x : Stream) : Option Nat := if x.lists.isEmpty && !x.hasPos then none else some x.place.2

/-- R310: lists of a stream whose SUBMITs have not ended. -/
def Stream.submitted (x : Stream) : List SubList := x.lists.filter fun l => !l.again

/-- R312, Table 12-13: a list put into a stream. One that runs from the position of a stream that a squash has rewound, and that has no
other list, takes the place of what runs again there. -/
def Stream.submit (x : Stream) (l : SubList) (fromPos : Bool) : Stream :=
  if fromPos && x.submitted.isEmpty && !x.lists.isEmpty then { x with lists := [l] }
  else { x with lists := x.lists ++ [l] }

/-- SUBMIT: a list appended to a stream (R310 to R313). -/
def execSubmit (f m : Nat) (s : State) : Step :=
  s.mboxRow f m 0x40 fun x t =>
    let p := x.arg 0 % 8
    let k := bits (x.arg 0) 13 8
    let lo := x.arg 1
    let hi := x.arg 2
    let y := t.stream p k
    let add (at' : Nat) : Step :=
      let l : SubList := { fn := f, mbox := m, first := lo, fin := hi, start := at' }
      served ((t.modStream p k fun z => z.submit l (bit (x.arg 0) 14)).beginCmd f m)
    if !(t.part p).valid then t.noCmd f m Err.partitionForm 0 (some p)
    else if (t.part p).halted then t.noCmd f m Err.partitionHalted 0 (some p)
    else if hi ≤ lo then t.noCmd f m Err.mbxForm 0x090 (some p)
    else if 8 ≤ y.submitted.length then t.noCmd f m Err.streamFull 0 (some p)
    else if bit (x.arg 0) 14 then
      match y.position with
      | some a => if lo ≤ a ∧ a < hi then add a else t.noCmd f m Err.mbxForm 0x081 (some p)
      | none => t.noCmd f m Err.mbxForm 0x081 (some p)
    else add lo

/-- Configuration word `i` of the snapshot block, at offset 8 i (Table 11-8). -/
def Snap.putWord (x : Snap) (i v : Nat) : Snap :=
  match i with
  | 1 => { x with
      enable := bit v 0, stall := bit v 1, baseK := bits v 7 2, agreeColl := bits v 19 8, intMin := bits v 35 20
      intMax := bits v 51 36 }
  | 2 => { x with deltaMin := bits v 15 0, cMin := bits v 31 16, cMax := bits v 47 32, mPrior := bits v 63 48 }
  | 3 => { x with
      mMin := bits v 15 0, mMax := bits v 31 16, window := bits v 39 32, rateLo := bits v 55 48, rateHi := bits v 63 56 }
  | 4 => { x with locBase := bits v 47 12 * 4096 }
  | 5 => { x with slotSize := bits v 39 12 * 4096 }
  | 6 => { x with holdM := bits v 13 0, holdMOff := bits v 59 28 * 2 ^ 12 }
  | 7 => { x with holdD := bits v 13 0, holdDOff := bits v 59 28 * 2 ^ 12 }
  | 8 => { x with steps := bits v 15 0 }
  | 9 => { x with anchor := BitVec.ofNat 64 v }
  | _ => x

/-- SNAP and MODE of a region (Table 11-9). -/
def Snap.putRegion (x : Snap) (i v : Nat) : Snap :=
  { x with regions := x.regions.mod {} i fun r => { r with snap := bit v 0, mode := bits v 2 1 } }

/-- R276: the configuration that the arguments of SNAP_CONFIG give. -/
def Snap.configured (x : Snap) (w : Nat → Nat) : Snap :=
  let y := (List.range 7).foldl (fun z i => z.putWord (i + 1) (w (i + 1))) x
  (List.range 256).foldl (fun z i => z.putRegion i (w (8 + i / 8) / 2 ^ (8 * (i % 8)))) y

/-- R276: the configuration is one that may stand. -/
def State.snapOk (s : State) (p : Nat) (y : Snap) : Bool :=
  let x := s.part p
  let tiered (g : Region) : Bool := zoneAt g.base == .hbm || zoneAt g.base == .lpddr
  let marked := (List.range 256).filter fun i => (y.regions.get {} i).snap
  let e := s.entry y.agreeColl
  (marked.all fun i => let g := x.mem.regions.get {} i; g.valid && g.paired && tiered g)
    && (x.mem.regions.any fun r => r.2.valid && zoneAt r.2.base == .lpddr && decide (r.2.base ≤ y.locBase)
      && decide (y.locBase + 3 * y.slotSize ≤ r.2.limit + 1))
    && decide (0x100000 + sumOf (marked.map fun i => pageUp (x.mem.regions.get {} i).half) ≤ y.slotSize)
    && s.rake.valid && e.members != 0 && e.op == 7
    && y.holdM != s.fab.id && y.holdD != s.fab.id && y.holdM != y.holdD && !x.busy

namespace Err
def snapConfigForm : Code := 0x0901
def snapEpoch : Code := 0x0902
end Err

/-- R294: a code recorded and logged that ends its command. -/
def State.snapErr (s : State) (p : Nat) (c : Code) : State :=
  (s.modSnap p fun x => { x with err := true, errCode := first x.err x.errCode c }).log
    { code := c, unit := unitDispatch, part := some p }

/-- SNAP_CONFIG (R276). -/
def execSnapConfig (f m : Nat) (s : State) : Step :=
  s.mboxRow f m 0x50 fun x t =>
    let p := x.arg 0 % 8
    let y := (t.part p).snap.configured x.arg
    if t.snapOk p y then (t.modSnap p fun _ => y).okCmd f m else (t.snapErr p Err.snapConfigForm).endCmd f m Err.snapConfigForm

/-- SNAP_SET (R277). -/
def execSnapSet (f m : Nat) (s : State) : Step :=
  s.mboxRow f m 0x51 fun x t =>
    let p := x.arg 0 % 8
    if x.arg 2 ≤ (t.part p).epoch.toNat then (t.snapErr p Err.snapEpoch).endCmd f m Err.snapEpoch
    else (t.modSnap p fun y => { y with steps := x.arg 1, anchor := BitVec.ofNat 64 (x.arg 2) }).okCmd f m

/-- R287, R288: the quiesce phase of RESTORE or FILL, with FAIL_TIME received. -/
def State.restoreBegin (s : State) (p failTime : Nat) : State :=
  (s.quiesce p).modSnap p fun y => { y with failTimes := (BitVec.ofNat 64 failTime :: y.failTimes).take 64, loaded := false }

/-- RESTORE (R288). -/
def execRestore (f m : Nat) (s : State) : Step :=
  s.mboxRow f m 0x52 fun x t =>
    let p := x.arg 0 % 8
    let u := t.restoreBegin p (x.arg 2)
    match (List.range 3).find? fun i =>
        let q := (u.part p).snap.slots.get {} i
        q.state == 3 && q.epoch.toNat == x.arg 1 with
    | none => (u.snapErr p Err.restoreEpoch).endCmd f m Err.restoreEpoch
    | some i =>
      match u.loadSlot p i with
      | (none, v) => v.okCmd f m
      | (some c, v) => v.endCmd f m c

/-- FILL begins: the slot is marked as writing, and nothing of it counts as present (R289). -/
def execFill (f m : Nat) (s : State) : Step :=
  s.mboxRow f m 0x53 fun x t =>
    let w := x.arg 0
    let p := w % 8
    let u := t.restoreBegin p (x.arg 2)
    let k := (u.part p).snap.freeSlot
    let r := u.drainPut p ((u.part p).snap.slotAt k) (List.replicate 0x1040 0)
    match r.1 with
    | .ok _ => served ((r.2.modSnap p fun y => { y with
        slots := y.slots.set {} k { epoch := BitVec.ofNat 64 (x.arg 1), state := 1 }
        fill := some { epoch := BitVec.ofNat 64 (x.arg 1), sources := bits w 39 32, counter := bits w 31 16, slot := k
                       fn := f, mbox := m } }).beginCmd f m)
    | .refused c => r.2.endCmd f m c
    | _ => idle s

/-- FILL_SERVE: begins, or, once begun, ends when its last write is performed (R290). -/
def execFillServe (f m : Nat) (s : State) : Step :=
  s.mboxAgain f m 0x54 fun x t =>
    let w := x.arg 0
    let p := w % 8
    let client := bits w 45 32
    if x.begun then
      match (t.part p).snap.serves.find? fun v => v.fn == f && v.mbox == m with
      | none => idle s
      | some v =>
        guarded (v.sends.isEmpty && t.outstanding (.serve p client) == 0) s
          ((t.modSnap p fun y => { y with serves := y.serves.filter fun u => u != v }).okCmd f m)
    else if (t.part p).snap.fill.isSome then (t.snapErr p Err.fillBusy).endCmd f m Err.fillBusy
    else
      match t.serveSends p (bits w 5 4) client (bits w 29 16) (x.arg 1) (x.arg 3) (BitVec.ofNat 64 (x.arg 2)) (bit w 6) with
      | none => (t.snapErr p Err.fillNoSource).endCmd f m Err.fillNoSource
      | some l =>
        served ((t.modSnap p fun y => { y with
          serves := y.serves ++ [{ client := client, fn := f, mbox := m, sends := l }] }).beginCmd f m)

/-- R9: a status that the manual leaves open: success, or a code that is not reserved. -/
def statusOf (n : Nat) : Code := if n % 14 = 0 then 0 else 256 * (n % 14) + 1 + n / 14 % 255

/-- R290: the FILL_SERVEs for a client stop. What status a stopped one ends with is open (log entry 64). -/
def State.stopServes (s : State) (p client : Nat) : State :=
  let l := (s.part p).snap.serves.filter fun v => v.client == client
  let t := s.modSnap p fun y => { y with serves := y.serves.filter fun v => v.client != client }
  l.foldl (fun u v => let q := u.free; q.2.finish v.fn v.mbox (statusOf q.1.toNat) []) t

/-- FILL_CANCEL (R290). -/
def execFillCancel (f m : Nat) (s : State) : Step :=
  s.mboxAgain f m 0x55 fun x t =>
    let p := x.arg 0 % 8
    let client := bits (x.arg 0) 29 16
    let u := if x.begun then t else (t.stopServes p client).beginCmd f m
    if u.outstanding (.serve p client) = 0 then u.okCmd f m else done .held u

/-- R313: the partition runs. -/
def State.resume (s : State) (p : Nat) : State :=
  let t := s.modPart p fun y => { y with halted := false, haltCode := 0, haltReq := none, snap := { y.snap with quiesced := false } }
  (t.part p).cores.foldl (fun u c => u.modCore c fun k => { k.quiet ((s.part p).epoch + 1) with run := .idle }) t

/-- RESUME (R313). -/
def execResume (f m : Nat) (s : State) : Step :=
  s.mboxRow f m 0x56 fun x t =>
    let p := x.arg 0 % 8
    if (t.part p).snap.loaded && (t.part p).snap.fill.isNone then (t.resume p).okCmd f m
    else t.noCmd f m Err.resumeState 0 (some p)

end Sys2Proof.Machine
end

