-- ==== Sys2Proof/Machine/JobCmds.lean ====
section
/-! DEFINITION. JOB_LOAD (R308, Table 12-9). -/

namespace Sys2Proof.Machine

/-- Why an image in device memory is not taken: its read is held, memory has refused it and logged that, or its form is wrong. -/
inductive ImageErr
  | held
  | memory (c : Code)
  | form (c : Code)
deriving DecidableEq, Repr

/-- R130: bytes of an image in device memory, read by the dispatch processor a page at a time, for a partition or for none (log entry
65). -/
def State.imageRead (s : State) (part : Option Nat) (a n : Nat) : Except ImageErr (List Byte) × State :=
  (pieces 4096 a n).foldl (fun acc e =>
    match acc.1 with
    | .error _ => acc
    | .ok bs =>
      let r := acc.2.memReq { unit := unitDispatch, part := part, addr := e.1, len := e.2 }
      match r.1 with
      | .ok cs => (.ok (bs ++ cs), r.2)
      | .refused c => (.error (.memory c), r.2)
      | _ => (.error .held, s)) (.ok [], s)

/-- One read after another. -/
def thenImage {α β : Type} (r : Except ImageErr α × State) (f : α → State → Except ImageErr β × State) :
    Except ImageErr β × State :=
  match r.1 with
  | .error e => (.error e, r.2)
  | .ok x => f x r.2

/-- A job descriptor (Table 12-9): PAN_SPLITs, entries of four words, groups with their values, barriers with theirs. -/
structure Job where
  split : Nat
  pans : List (Nat × Nat)
  deferBase : Nat
  deferSize : Nat
  traceBase : Nat
  traceSize : Nat
  regions : List (Nat × List Nat)
  groups : List (Nat × Nat)
  bars : List (Nat × Nat)
deriving DecidableEq, Repr

/-- REGIONS, GROUPS, BARRIERS of a header. -/
def jobCounts (h : List Byte) : Nat × Nat × Nat := (wordAt h 4 2, wordAt h 6 2, wordAt h 8 2)

/-- R308: the header is in form. -/
def jobHeadOk (h : List Byte) : Bool :=
  let n := jobCounts h
  wordAt h 0 4 == 0x4A4F4231 && decide (n.1 ≤ 256) && decide (n.2.1 ≤ 256) && decide (n.2.2 ≤ 1024)
    && wordAt h 10 2 == 0 && wordAt h 0x50 176 == 0

/-- The descriptor of a header and the bytes after it. -/
def jobOf (h b : List Byte) : Job :=
  let n := jobCounts h
  let word (at' k : Nat) : Nat := wordAt b (at' + 8 * k) 8
  let gs := 32 * n.1
  let bs := gs + 8 * n.2.1
  { split := wordAt h 0xC 4, pans := (List.range 8).map fun i => (i, wordAt h (0x10 + 4 * i) 4)
    deferBase := wordAt h 0x30 8, deferSize := wordAt h 0x38 8, traceBase := wordAt h 0x40 8, traceSize := wordAt h 0x48 8
    regions := (List.range n.1).map fun i => (i, (List.range 4).map fun k => word (32 * i) k)
    groups := (List.range n.2.1).map fun j => (bits (word gs j) 39 32, word gs j)
    bars := (List.range n.2.2).map fun k => (word bs (2 * k), word bs (2 * k + 1)) }

/-- R308: no bit is set that Table 12-9 leaves zero. -/
def Job.formOk (j : Job) : Bool :=
  decide (j.split < 2 ^ 24) && (j.pans.all fun e => decide (e.2 < 2 ^ 15)) && decide (j.deferBase < 2 ^ 48)
    && decide (j.deferSize < 2 ^ 40) && decide (j.traceBase < 2 ^ 48) && decide (j.traceSize < 2 ^ 40)
    && (j.groups.all fun e => bits e.2 31 8 == 0 && e.2 / 2 ^ 40 == 0)
    && j.bars.all fun e => decide (e.1 < 1024) && decide (e.2 < 2 ^ 41)

/-- R308: the descriptor at an address, or the code that refuses it. -/
def State.jobRead (s : State) (p desc : Nat) : Except ImageErr Job × State :=
  thenImage (s.imageRead (some p) desc 0x100) fun h t =>
    if !jobHeadOk h then (.error (.form Err.mbxForm), t)
    else
      let n := jobCounts h
      thenImage (t.imageRead (some p) (desc + 0x100) (32 * n.1 + 8 * n.2.1 + 16 * n.2.2)) fun b u =>
        let j := jobOf h b
        (if j.formOk then .ok j else .error (.form Err.mbxForm), u)

/-- R308: the groups are ones that partition `p` may take. -/
def State.jobGroupsOk (s : State) (p : Nat) (j : Job) : Bool :=
  (j.groups.all fun e =>
    let g := s.sync.groups.get {} e.1
    (groupOf (e.2 % 256)).part == p && (!g.valid || g.part == p))
    && decide (j.groups.map (·.1)).Nodup

/-- R131, R132, R134, R139, R394: the memory tables of a job, judged against the other partitions. -/
def State.jobMem (s : State) (p : Nat) (j : Job) : Except Code State :=
  let t := (s.jobRelease p).modPart p fun x => { x with mem := { x.mem with
    regions := [], panSplit := [], deferBase := 0, deferSize := 0 } }
  (j.pans.foldlM (fun (u : State) e => u.splitPut p e.1 e.2) t).bind fun t1 =>
    (j.regions.foldlM (fun (u : State) e =>
      let w (i : Nat) : Nat := (e.2[i]?).getD 0
      u.regionPut p e.1 (w 0) (w 1) (w 2) (w 3)) t1).bind fun t2 =>
      if t2.deferOk p j.deferBase j.deferSize then
        .ok (t2.modPart p fun x => { x with mem := { x.mem with
          deferBase := j.deferBase, deferSize := j.deferSize
          regions := x.mem.regions.mapVals fun i g => g.over ((s.part p).mem.regions.get {} i) } })
      else .error Err.regionLoad

/-- R170, R183: groups, counters, barriers and the watch split of a job. -/
def Sync.jobPut (x : Sync) (p : Nat) (j : Job) : Except Code Sync :=
  let listed (i : Nat) : Bool := j.groups.any fun e => e.1 == i / 256
  let y : Sync := { x with
    groups := j.groups.foldl (fun t e => t.set {} e.1 (groupOf (e.2 % 256))) x.groups
    counters := x.counters.filter fun e => !listed e.1, provs := x.provs.filter fun e => !listed e.1
    splits := x.splits.drop p }
  (j.bars.foldlM (fun (z : Sync) e => z.barrierPut p e.1 e.2) y).bind fun z => z.splitPut p j.split

/-- R308: the job put in the place of the old one. -/
def State.jobPut (s : State) (p seed epoch : Nat) (j : Job) : Except Code State :=
  if !s.jobGroupsOk p j then .error Err.counterOwner
  else (s.jobMem p j).bind fun t => (t.sync.jobPut p j).bind fun y =>
    let u := (t.part p).cores.foldl (fun u c => u.modCore c fun k => { k with
      ve := { k.ve with draw := {}, save := none }
      mv := ([0, 1] : List Nat).foldl (fun l i => l.mod {} i fun (m : Mover) => { m with draw := {}, save := none }) k.mv })
      ({ t with sync := y } : State)
    let v := u.modPart p fun x => { x with
      job := true, jobSeed := BitVec.ofNat 64 seed, epoch := BitVec.ofNat 64 epoch, attempt := 0, squash := none, commit := none
      streams := [], traceBase := j.traceBase, traceSize := j.traceSize, traceIndex := 0 }
    .ok (v.syncTest fun i => j.groups.any fun e => e.1 == i / 256)

/-- R308: the partition has a job with work outstanding. -/
def State.jobBusy (s : State) (p : Nat) : Bool :=
  let x := s.part p
  x.job && (x.busy || (s.rake.active ++ s.rake.queue).any (fun c => c.part == p) || x.cores.any fun c =>
    let k := s.core c
    (!x.halted && (k.block.isSome || !k.launches.isEmpty)) || ([0, 1] : List Nat).any fun m => !(s.mover c m).active.isEmpty)

/-- R320: the domains that a job needs. -/
def Job.domains (j : Job) (cores : List Nat) : List Nat :=
  let covers (z : Zone) : Bool := j.regions.any fun e =>
    let w (i : Nat) : Nat := (e.2[i]?).getD 0
    let g := regionOf (w 0) (w 1) (w 2)
    g.valid && zoneAt g.base == z
  cores ++ ((j.pans.filter fun e => (panSplitOf e.2).size != 0).map fun e => 32 + e.1)
    ++ (if covers .hbm || j.deferSize != 0 then [40, 41, 42, 43, 44, 45] else []) ++ (if covers .lpddr then [46, 47] else []) ++ [56]

/-- JOB_LOAD (R308, R320). -/
def execJobLoad (f m : Nat) (s : State) : Step :=
  s.mboxAgain f m 0x23 fun x t =>
    let p := x.arg 0 % 8
    if !(t.part p).valid then t.noCmd f m Err.partitionForm 0 (some p)
    else if t.jobBusy p then t.noCmd f m Err.partitionBusy 0 (some p)
    else match t.jobRead p (x.arg 3) with
      | (.error .held, _) => idle s
      | (.error (.memory c), u) => u.endCmd f m c
      | (.error (.form c), u) => u.noCmd f m c 0 (some p) (some (x.arg 3))
      | (.ok j, u) => match u.jobPut p (x.arg 1) (x.arg 2) j with
        | .error c => u.noCmd f m c 0 (some p) (some (x.arg 3))
        | .ok v => u.whenOn f m (j.domains (t.part p).cores) fun _ => v.okCmd f m

end Sys2Proof.Machine
end

