-- ==== Sys2Proof/Machine/PlanCmds.lean ====
section
/-! DEFINITION. PLAN_LOAD (R236, R246, R251 to R254, Tables 10-1 to 10-3). -/

namespace Sys2Proof.Machine

/-- A section entry of the header: TYPE, COUNT, offset, and whether RSVD is zero (Table 10-1). -/
structure Section where
  ty : Nat
  count : Nat
  off : Nat
  clean : Bool
deriving DecidableEq, Repr

/-- Bytes of an entry of a section of each type (Table 10-2). -/
def sectionSize (ty : Nat) : Nat :=
  match ty with
  | 1 | 6 => 8
  | 2 | 3 => 16
  | 4 => 64
  | _ => 2

/-- COUNT is what Table 10-2 gives the type. -/
def sectionCountOk (ty n : Nat) : Bool :=
  match ty with
  | 1 => n == 36
  | 2 | 6 => n == 16384
  | 3 => n == 4096
  | 4 => decide (1 ≤ n) && decide (n ≤ 4096)
  | _ => true

/-- The section table of a header. -/
def planSections (h : List Byte) : List Section :=
  (List.range 8).map fun i =>
    let o := 0x50 + 16 * i
    { ty := wordAt h o 2, count := wordAt h (o + 4) 4, off := wordAt h (o + 8) 8, clean := wordAt h (o + 2) 2 == 0 }

/-- R252: a section that the table may hold. -/
def Section.ok (x : Section) : Bool :=
  x.clean && decide (x.ty ≤ 6) && (x.ty == 0 || (sectionCountOk x.ty x.count
    && decide (x.off + x.count * sectionSize x.ty ≤ 0x400000)))

/-- R251, R252: the header and its section table are in form. -/
def planHeadOk (image : Nat) (h : List Byte) : Bool :=
  let ss := planSections h
  let tys : List Nat := (ss.map (·.ty)).filter (· != 0)
  image % 4096 == 0 && wordAt h 0 4 == 0x534C5031 && wordAt h 4 2 == 1 && wordAt h 6 2 == 0 && wordAt h 8 8 != 0
    && decide (1 ≤ wordAt h 0x10 2) && decide (wordAt h 0x10 2 ≤ 16384) && decide (wordAt h 0x12 2 < 2 ^ 14)
    && bits (wordAt h 0x4C 4) 0 0 == 0 && wordAt h 0x4C 4 / 2 ^ 21 == 0 && wordAt h 0xD0 48 == 0 && (ss.all Section.ok)
    && decide tys.Nodup && ([1, 2, 3, 4, 6] : List Nat).all fun t => tys.contains t

/-- Bytes of the section of a type; none where it is absent. -/
def State.planSection (s : State) (image : Nat) (h : List Byte) (ty : Nat) : Except ImageErr (List Byte) × State :=
  match (planSections h).find? fun x => x.ty == ty with
  | none => (.ok [], s)
  | some x => s.imageRead none (image + x.off) (x.count * sectionSize ty)

/-- A plan image: its header, and its sections as numbers. -/
structure Plan where
  head : List Byte
  links : List Nat
  routes : List Nat
  groups : List Nat
  colls : List (List Nat)
  members : List Nat
  coords : List Nat
deriving DecidableEq, Repr

/-- Bytes cut into numbers of `n` bytes. -/
def chop (n : Nat) (bs : List Byte) : List Nat := (List.range (bs.length / n)).map fun i => wordAt bs (n * i) n

/-- The words of a collective entry. -/
def wordsOf (l : List Nat) : Nat → Nat := fun i => (l[i]?).getD 0

/-- An entry of the LINKS section (Table 10-2). -/
def linkExpOf (v : Nat) : LinkExp := { peer := bits v 13 0, link := bits v 19 14, used := bit v 20, enc := bit v 21 }

/-- R254: the collective entries and the links are in form. -/
def Plan.ok (x : Plan) : Bool :=
  let self := wordAt x.head 0x12 2
  (x.links.all fun v => decide (v < 2 ^ 22)) && x.colls.all fun w =>
    (collEntryOf (wordsOf w)).ok (wordsOf w) x.members self fun g => bit ((x.groups[g]?).getD 0) 90

/-- R251, R252: the image at an address, or why it is not taken. -/
def State.planRead (s : State) (image : Nat) : Except ImageErr Plan × State :=
  thenImage (s.imageRead none image 0x100) fun h t =>
    if !planHeadOk image h then (.error (.form Err.planForm), t)
    else
      let sec (ty : Nat) (u : State) : Except ImageErr (List Byte) × State := u.planSection image h ty
      thenImage (sec 1 t) fun l t1 => thenImage (sec 2 t1) fun r t2 => thenImage (sec 3 t2) fun g t3 =>
        thenImage (sec 4 t3) fun c t4 => thenImage (sec 5 t4) fun m t5 => thenImage (sec 6 t5) fun d t6 =>
          let x : Plan := { head := h, links := chop 8 l, routes := chop 16 r, groups := chop 16 g
                            colls := (List.range (c.length / 64)).map fun i => chop 8 ((c.drop (64 * i)).take 64)
                            members := chop 2 m, coords := chop 8 d }
          (if x.ok then .ok x else .error (.form Err.planForm), t6)

/-- FEATURES of a plan. -/
def Plan.features (x : Plan) : BitVec 256 := BitVec.ofNat 256 (wordAt x.head 0x20 32)

/-- The module is the time root (R176). -/
def Plan.root (x : Plan) : Bool := wordAt x.head 0x12 2 == wordAt x.head 0x14 2 % 2 ^ 14

/-- FT_CTRL from a plan (Tables 07-18, 10-1). -/
def Plan.ftCtrl (x : Plan) : Nat :=
  let par := wordAt x.head 0x16 1
  let alt := wordAt x.head 0x17 1
  ({ enable := !x.root, root := x.root, parentLink := if par = 0xFF then 0 else par % 64
     altLink := if alt = 0xFF then 0 else alt % 64, altEn := alt != 0xFF } : FtCtrl).word

/-- R252 step 5, R236: FAB_ID, FT_CTRL, FAB_WRR and OPT_CTRL. -/
def State.planRegs (s : State) (x : Plan) : State :=
  let q := s.free
  let wrr := wordAt x.head 0x48 4
  let opt := wordAt x.head 0x4C 4
  State.touchAll q.2 { q.2 with
    rake := { q.2.rake with valid := false }
    fab := { q.2.fab with id := wordAt x.head 0x12 2, w1 := bits wrr 7 0, w2 := bits wrr 15 8, w3 := bits wrr 23 16 }
    sync := q.2.sync.ftWrite x.ftCtrl q.1.toNat
    opt := { q.2.opt with
      gaps := decide (1024 < wordAt x.head 0x10 2), minLanes := bits opt 4 1, spareCal := bits opt 20 5 } }

/-- R252 step 7: collective entries, members, coordinates and link expectations. -/
def State.planTables (s : State) (x : Plan) : State :=
  let put {α : Type} [DecidableEq α] (d : α) (l : List α) : Tab α := Tab.setList d [] 0 l
  { s with rake := { s.rake with
    entries := put {} (x.colls.map fun w => collEntryOf (wordsOf w)), members := put 0 x.members
    coords := put 0 (x.coords.map (BitVec.ofNat 64)), links := put {} (x.links.map linkExpOf), sent := [], counts := []
    lateSpans := [] } }

/-- R252 step 8. -/
def State.planValid (s : State) (x : Plan) : State :=
  { s with rake := { s.rake with
    valid := true, planId := BitVec.ofNat 64 (wordAt x.head 8 8), coord := BitVec.ofNat 64 (wordAt x.head 0x40 8)
    features := x.features } }

/-- R246, R253: the check of the peer of link `k` under a new plan, by discovery; a migration or a loopback on the spares comes first. -/
def State.planLink (s : State) (k : Nat) : State :=
  let e := s.rake.links.get {} k
  let t := s.modPort k fun p => { p with encEn := e.enc }
  let l := t.link k
  if !e.used then (if l.trained then t.linkDown k else t).peerCheck k
  else if t.up k ∧ (l.mig.isSome ∨ l.loop.isSome) then t.modLink k fun y => { y with discRetry := some t.now }
  else t.discover k

/-- R252 step 9: a root that is FREE loads FT_START; watches on fabric time are tested. Where the unit has been LOCKED since the full
reset, time does not step: it is slewed there (R175, log entry 103). -/
def State.planTime (s : State) (x : Plan) : State :=
  if x.root && s.sync.ftState == .free then
    let n := BitVec.ofNat 64 (wordAt x.head 0x18 8)
    let y : Sync := if s.sync.locked then { s.sync with slew := (n - s.sync.ft).toInt }
      else { s.sync with ft := n, loaded := true, slew := 0 }
    let r := Sync.follow y.testTime
    { s with sync := r.1 }.deliver r.2
  else s

/-- R252: steps 5 to 9; the code that stops the load at step 6. -/
def State.planPut (s : State) (x : Plan) : Option Code × State :=
  let entries (l : List Nat) : List (Nat × BitVec 128) := (List.range l.length).map fun i => (i, BitVec.ofNat 128 ((l[i]?).getD 0))
  let r := State.putEntries State.routePut routeOff (entries x.routes) (s.planRegs x)
  match r.1 with
  | some c => (some c, r.2)
  | none =>
    let g := State.putEntries State.groupPut groupOff (entries x.groups) r.2
    match g.1 with
    | some c => (some c, g.2)
    | none => (none, ((List.range 36).foldl State.planLink ((g.2.planTables x).planValid x)).planTime x)

/-- R320: the domains that a plan needs: router, rake, and every engine with a link that it uses. -/
def Plan.domains (x : Plan) : List Nat :=
  [54, 55] ++ ((List.range 6).filter fun e => (linksOf e).any fun k => (linkExpOf ((x.links[k]?).getD 0)).used).map (48 + ·)

/-- R252 step 4: a collective is active, or a stream has work outstanding. -/
def State.planBusy (s : State) : Bool :=
  !s.rake.active.isEmpty || !s.rake.queue.isEmpty || (List.range 8).any fun p => (s.part p).busy

/-- PLAN_LOAD (R252 to R254, R320). -/
def execPlanLoad (f m : Nat) (s : State) : Step :=
  s.mboxAgain f m 0x30 fun x t =>
    let refuse (u : State) (c : Code) : Step := (u.rakeErr c none false (some (x.arg 0))).endCmd f m c
    match t.planRead (x.arg 0) with
    | (.error .held, _) => idle s
    | (.error (.memory c), r) => r.endCmd f m c
    | (.error (.form c), r) => refuse r c
    | (.ok y, r) =>
      if (y.features &&& ~~~t.host.offered) != 0 then refuse r Err.planFeatures
      else if t.planBusy then refuse r Err.planBusy
      else r.whenOn f m y.domains fun u =>
        match u.planPut y with
        | (none, v) => v.okCmd f m
        | (some c, v) => v.endCmd f m c

end Sys2Proof.Machine
end

