-- ==== Sys2Proof/Machine/PowerCmds.lean ====
section
/-! DEFINITION. Power domains, the cap, the ladder, duty, hints and thermal thresholds (chapter 13). -/

namespace Sys2Proof.Machine

namespace Err
def capRange : Code := 0x0B01
def capUnattainable : Code := 0x0B02
def domainBusy : Code := 0x0B03
def thermalWarning : Code := 0x0B04
def thermalThrottle : Code := 0x0B05
def inputLimit : Code := 0x0B06
def pwrWrite : Code := 0x0B09
def threshRange : Code := 0x0B0A
end Err

/-- Lowest and highest cap, W (R325). -/
def capLow : Nat := 700
def capHigh : Nat := 2200

/-- The cap that is applied (R325). -/
def capClamp (w : Nat) : Nat := max capLow (min capHigh w)

/-- R331: the ladder level that a hint of a class asks for. A class without a learned value uses the current level; the prediction of
the others is open (log entry 66). -/
def State.hintLevel (s : State) (k : Nat) : Nat × State :=
  if s.pwr.learned.get 0 k = 0 then (s.pwr.level, s)
  else
    let q := s.free
    (q.1.toNat % 15, q.2)

/-- R331, Table 13-12: the levels of the hints that govern, worked out again. -/
def State.rehint (s : State) : State :=
  s.pwr.hints.foldl (fun t h =>
    let r := if h.2.2.2.2.isSome then let q := t.hintLevel h.2.1; (some q.1, q.2) else (none, t)
    { r.2 with pwr := { r.2.pwr with hints := r.2.pwr.hints ++ [(h.1, h.2.1, h.2.2.1, h.2.2.2.1, r.1)] } })
    { s with pwr := { s.pwr with hints := [] } }

/-- R325, R330: a cap applied. -/
def State.capPut (s : State) (w : Nat) : State :=
  let v := capClamp w
  { s with pwr := { s.pwr with cap := v, capUn := s.pwr.capUn && decide (v ≤ s.pwr.cap) } }.rehint

/-- SET_CAP (R325). -/
def execSetCap (f m : Nat) (s : State) : Step :=
  s.mboxRow f m 0x14 fun x t =>
    let w := x.arg 0
    let u := t.capPut w
    if capClamp w = w then u.okCmd f m (wordBytes [w])
    else (u.pwrLog Err.capRange 0x08 (unitHost + f)).endCmd f m Err.capRange (capClamp w)

/-- A write of a power register refused (R337). -/
def State.pwrRegRefuse (s : State) (w : Who) (off : Nat) (c : Code) : State :=
  { s with pwr := { s.pwr with err := true, errCode := first s.pwr.err s.pwr.errCode c } }.log
    { code := c, unit := w.unit, srcId := if w.remote then some w.srcId else none, part := s.partOfUnit w.unit
      addr := some (cfgBase + 0x1500000 + off), remote := w.remote }

/-- R320: bit `d` of a write of PWR_DOMAIN_REQ; the flag tells that a domain stays on. -/
def State.domainReq (v : Word) (r : Bool × State) (d : Nat) : Bool × State :=
  if v.getLsbD d then (r.1, r.2.askDomains [d])
  else if !r.2.pwr.req.getLsbD d then r
  else if r.2.domainIdle d then
    let t := if r.2.domainOn d then r.2.domainOff d else r.2
    (r.1, { t with pwr := { t.pwr with req := t.pwr.req &&& ~~~BitVec.ofNat 64 (2 ^ d) } })
  else (true, r.2)

/-- R320: PWR_DOMAIN_REQ written; domains 57 to 61 are not switched by it. -/
def State.domainsPut (s : State) (v : Word) : Bool × State := (List.range 57).foldl (State.domainReq v) (false, s)

/-- PWR_DOMAIN_REQ_WRITE (R320, R337). -/
def execPwrDomainReqWrite (w : Who) (v : Word) (s : State) : Step :=
  if !w.isHost then done (.refused Err.pwrWrite) (s.pwrRegRefuse w 0x10 Err.pwrWrite)
  else match s.domainsPut v with
    | (false, t) => served t
    | (true, t) => done (.refused Err.domainBusy) (t.pwrRegRefuse w 0x10 Err.domainBusy)

/-- DOMAIN_POWERED (R319, R320). -/
def execDomainPowered (d : Nat) (s : State) : Step :=
  guarded (decide (d < 62) && s.domainReady d) s (served (s.domainUp d))

/-- R328, R385: a sample exceeds what the gate allows; below 40 V it is scaled. `volts` in units of 10 mV. -/
def overInput (watts volts : Nat) : Bool := if volts < 4000 then decide (2400 * volts < 4000 * watts) else decide (2400 < watts)

/-- POWER_SAMPLE (R326, R328, R385). -/
def execPowerSample (watts volts : Nat) (s : State) : Step :=
  guarded (decide (watts < 2 ^ 16 ∧ volts < 2 ^ 16) && s.rst.supply) s <|
    let l := (watts :: s.pwr.samples).take 100
    let t : State := { s with pwr := { s.pwr with samples := l, power := meanOf l, volts := volts } }
    if overInput watts volts then
      let u : State := { t with pwr := { t.pwr with gated := true, inputLimit := true } }
      served (if s.pwr.gated then u else u.pwrLog Err.inputLimit 0)
    else served t

/-- The lowest of the levels that hints ask for: the ladder does not move above it (R331). -/
def Pwr.hintFloor (x : Pwr) : Nat := x.hints.foldl (fun n h => max n (h.2.2.2.2.getD 0)) 0

/-- R326, R328, R331, R333: the level after a tick. -/
def Pwr.nextLevel (x : Pwr) : Nat :=
  if x.gated ∨ x.throttle ∨ x.cap < x.power ∨ x.level < x.hintFloor then min 14 (x.level + 1)
  else if 100 * x.power ≤ 95 * x.cap ∧ x.hintFloor < x.level then x.level - 1
  else x.level

/-- R331: a hinted phase is over: its class has learned a value, which is open (log entry 66). -/
def State.hintsEnd (s : State) : State :=
  let past (h : Nat × Nat × Nat × Nat × Option Nat) : Bool := decide (h.2.2.1 + h.2.2.2.1 ≤ s.sync.ft.toNat)
  let t : State := { s with pwr := { s.pwr with hints := s.pwr.hints.filter fun h => !past h } }
  (s.pwr.hints.filter fun h => past h && h.2.2.2.2.isSome).foldl (fun u h =>
    let q := u.free
    { q.2 with pwr := { q.2.pwr with learned := q.2.pwr.learned.set 0 h.2.1 (1 + q.1.toNat % 65535) } }) t

/-- R330: CAP_UNATTAINABLE after a tick. -/
def State.unattainable (s : State) : State :=
  let x := s.pwr
  if x.power ≤ x.cap then
    let t0 := x.capOkSince.getD s.now
    { s with pwr := { x with capOkSince := some t0, capUn := x.capUn && decide (s.now < t0 + 100000000) } }
  else
    let t : State := { s with pwr := { x with capOkSince := none } }
    if x.level = 14 ∧ !x.capUn then { t with pwr := { t.pwr with capUn := true } }.pwrLog Err.capUnattainable 0 else t

/-- R332: the energy of a tick, µJ: of the input, of partitions, of streams; what no partition has is shared. -/
def State.addEnergy (s : State) (input : Nat) (parts : List (Nat × Nat)) (streams : List (Nat × Nat × Nat)) : State :=
  let t : State := { s with pwr := { s.pwr with
    energy := s.pwr.energy + BitVec.ofNat 64 input
    shared := s.pwr.shared + BitVec.ofNat 64 (input - sumOf (parts.map (·.2))) } }
  let u := parts.foldl (fun v e => v.modPart e.1 fun x => { x with energy := x.energy + BitVec.ofNat 64 e.2 }) t
  streams.foldl (fun v e => v.modPart e.1 fun x => { x with
    streamEnergy := x.streamEnergy.mod 0 e.2.1 fun w => w + BitVec.ofNat 64 e.2.2 }) u

/-- LADDER_TICK: at a multiple of 1 ms of fabric time (R326, R328, R330 to R332). -/
def execLadderTick (input : Nat) (parts : List (Nat × Nat)) (streams : List (Nat × Nat × Nat)) (s : State) : Step :=
  guarded (s.sync.ft.toNat % 1000000 == 0 && s.rst.supply && (parts.all fun e => decide (e.1 < 8))
      && (streams.all fun e => decide (e.1 < 8 ∧ e.2.1 < 64)) && decide (sumOf (parts.map (·.2)) ≤ input)) s <|
    let t := s.hintsEnd
    let u := t.unattainable
    served ({ u with pwr := { u.pwr with level := t.pwr.nextLevel, gated := false } }.addEnergy input parts streams)

/-- DUTY_WINDOW_START: cores that only the duty held issue again (R92, R329). -/
def execDutyWindowStart (s : State) : Step :=
  guarded (s.sync.ft.toNat % 10000 == 0) s <|
    served ((List.range 32).foldl (fun t c => t.modCore c fun k => { k with
      dutyHold := false
      run := if k.dutyHold ∧ k.run = .held ∧ k.waiting.isNone ∧ !k.squashHold ∧ k.block.isSome then .issuing else k.run }) s)

/-- DUTY_HOLD: d × 1,250 ns into the window every core is held (R329). -/
def execDutyHold (s : State) : Step :=
  guarded (decide (s.pwr.duty < 8) && s.sync.ft.toNat % 10000 == 1250 * s.pwr.duty) s <|
    served ((List.range 32).foldl (fun t c => t.modCore c fun k => { k with
      dutyHold := true, run := if k.run = .issuing then .held else k.run }) s)

/-- R331: a hint whose time has come governs the ladder; the ladder moves to the lowest level asked for. While CAP_UNATTAINABLE is
set it has no effect (Table 13-12), and a thermal throttle lets nothing rise. -/
def State.preposition (s : State) : State :=
  let due (h : Nat × Nat × Nat × Nat × Option Nat) : Bool := h.2.2.2.2.isNone && decide (h.2.2.1 ≤ s.sync.ft.toNat + 60000)
  let dues := s.pwr.hints.filter due
  let t : State := { s with pwr := { s.pwr with hints := s.pwr.hints.filter fun h => !due h } }
  if s.pwr.capUn then t
  else
    let u := dues.foldl (fun v h =>
      let q := v.hintLevel h.2.1
      { q.2 with pwr := { q.2.pwr with
        hints := q.2.pwr.hints ++ [(h.1, h.2.1, h.2.2.1, h.2.2.2.1, some q.1)]
        lastOp := q.2.pwr.lastOp.set 0 h.2.1 (7 - q.1) } }) t
    let n := u.pwr.hintFloor
    if u.pwr.throttle ∧ n < u.pwr.level then u else { u with pwr := { u.pwr with level := n } }

/-- HINT_PREPOSITION (R331). -/
def execHintPreposition (s : State) : Step :=
  guarded (s.pwr.hints.any fun h => h.2.2.2.2.isNone && decide (h.2.2.1 ≤ s.sync.ft.toNat + 60000)) s (served s.preposition)

/-- A thermal condition after a reading: whether it holds, and since when the sensor has stayed 3 °C below the threshold (R333).
Temperatures in 1/16 °C. -/
def thermJudge (on : Bool) (cool : Option Nat) (limit : Nat) (hot : Int) (now : Nat) : Bool × Option Nat :=
  if (16 * limit : Int) ≤ hot then (true, none)
  else if on ∧ hot ≤ (16 * limit : Int) - 48 then
    let t0 := cool.getD now
    if t0 + 1000000000 ≤ now then (false, none) else (true, some t0)
  else (on, none)

/-- The hottest of the readings and its sensor, the lowest numbered of equals. -/
def hottest (temps : List Int) : Int × Nat :=
  ((List.range temps.length).foldl (fun (acc : Option (Int × Nat)) i =>
    let v := (temps[i]?).getD 0
    match acc with
    | some a => if a.1 < v then some (v, i) else acc
    | none => some (v, i)) none).getD (0, 0)

/-- THERMAL_SAMPLE: the 72 sensors, in 1/16 °C (R333, R334, R358). -/
def execThermalSample (temps : List Int) (s : State) : Step :=
  guarded (temps.length == 72 && s.rst.supply) s <|
    let h := hottest temps
    let w := thermJudge s.pwr.warn s.pwr.warnCool s.pwr.tWarn h.1 s.now
    let q := thermJudge s.pwr.throttle s.pwr.throttleCool s.pwr.tThrottle h.1 s.now
    let t : State := { s with
      pwr := { s.pwr with
        tjMax := h.1 / 16, sensor := h.2, warn := w.1, warnCool := w.2, throttle := q.1, throttleCool := q.2 }
      mgmt := { s.mgmt with temps := Tab.setList 0 [] 0 temps } }
    let u := if !s.pwr.warn ∧ w.1 then t.pwrLog Err.thermalWarning 0x24 else t
    let v := if !s.pwr.throttle ∧ q.1 then u.pwrLog Err.thermalThrottle 0x24 else u
    served v.thermal

/-- The thresholds that are applied (Table 13-5). -/
def thermClamp (warn throttle : Nat) : Nat × Nat :=
  let a := max 85 (min 110 warn)
  (a, max (a + 3) (min 115 throttle))

/-- THERM_CTRL_WRITE (R333, R337). -/
def execThermCtrlWrite (w : Who) (v : BitVec 32) (s : State) : Step :=
  if !w.isHost then done (.refused Err.pwrWrite) (s.pwrRegRefuse w 0x20 Err.pwrWrite)
  else
    let a := v.toNat % 256
    let b := v.toNat / 256 % 256
    let q := thermClamp a b
    let t : State := { s with pwr := { s.pwr with tWarn := q.1, tThrottle := q.2 } }
    if q = (a, b) then served t else done (.refused Err.threshRange) (t.pwrRegRefuse w 0x20 Err.threshRange)

end Sys2Proof.Machine
end

