-- ==== Sys2Proof/Machine/ResetCmds.lean ====
section
/-! DEFINITION. Resets, quench, input power and start-up (chapter 14, R335, R336, R384 to R386, R296). -/

namespace Sys2Proof.Machine

/-- BANK_CLEAR (R353). -/
def execBankClear (f m : Nat) (s : State) : Step := s.mboxRow f m 0x12 fun _ t => t.bankClear.okCmd f m

/-- A mailbox RESET of a kind. -/
def State.resetRow (s : State) (f m kind : Nat) (run : Mbox → State → Step) : Step :=
  s.mboxRow f m 0x13 fun x t => guarded (x.arg 0 % 4 == kind) s (run x t)

/-- RESET_COMPUTE: the command completes before the reset begins (R305, R342). -/
def execResetCompute (f m : Nat) (s : State) : Step :=
  s.resetRow f m 0 fun _ t => served ((t.finish f m 0 []).computeReset 3 0)

/-- RESET_FULL (R346). -/
def execResetFull (f m : Nat) (s : State) : Step :=
  s.resetRow f m 1 fun _ t => served ((t.finish f m 0 []).acceptFull 3 0)

/-- RESET_BLOCK (R345). -/
def execResetBlock (f m : Nat) (s : State) : Step :=
  s.resetRow f m 2 fun x t =>
    match t.blockReset (bits (x.arg 0) 15 8) 3 with
    | .ok u => u.okCmd f m
    | .error c => (t.rstLog c (unitHost + f)).endCmd f m c

/-- BLOCK_RESET_DONE (R345). -/
def execBlockResetDone (s : State) : Step :=
  match s.rst.blockBusy with
  | none => idle s
  | some b => guarded (s.blockDone b) s (served (s.blockEnd b))

/-- FUNCTION_LEVEL_RESET (R318, R342). -/
def execFunctionLevelReset (f : Nat) (s : State) : Step := guarded (s.fnOn f) s (served (s.acceptFn f 9))

/-- HOT_RESET: every function is reset and the link retrains (R342). -/
def execHotReset (s : State) : Step :=
  guarded s.hostUp s <|
    let t := s.acceptFn 0 8
    served { t with host := { t.host with linkFast := false } }

/-- CONFIGURATION_WRITE (R296): VF Enable, and the size of a BAR2 window. -/
def execConfigurationWrite (x : CfgWrite) (s : State) : Step :=
  guarded s.hostUp s <|
    match x with
    | .vfEnable on => served { s with host := { s.host with vfEnable := on } }
    | .bar2Size f pow => guarded (decide (f < 9 ∧ pow ≤ 6)) s (served (s.modFn f fun y => { y with bar2Size := pow }))

/-- Two instants lie in one cycle of the 50 MHz hearth clock. -/
def sameHearthCycle (a b : Nat) : Bool := a / 20 == b / 20

/-- The instant at which the reset now in its stretch was accepted. -/
def Rst.since (x : Rst) : Nat := (x.stretch.map (·.at')).getD 0

/-- COOLANT_LOSS: COOLANT_OK low for 10 µs (R335, R336). -/
def execCoolantLoss (s : State) : Step :=
  let low (t : State) : State := { t with rst := { t.rst with coolantOk := false } }
  if !s.rst.supply then served (low s)
  else if !s.rst.quenched then served (low (s.quenchBy 1))
  else if sameHearthCycle s.rst.since s.now then served (low { s with pwr := { s.pwr with quenchCause := 1 } })
  else served (low s)

/-- THERMTRIP: THERMTRIP_N low, driven by the comparator or pulled from outside (R333, R335). -/
def execThermtrip (s : State) : Step :=
  let low (t : State) : State := { t with rst := { t.rst with tripLow := true } }
  if !s.rst.supply ∨ s.rst.quenched then served (low s) else served (low (s.quenchBy 2))

/-- QUENCH_RECOVERY: COOLANT_OK and THERMTRIP_N have been high for 1 s (R336, R386). -/
def execQuenchRecovery (s : State) : Step :=
  guarded (s.rst.supply && (s.rst.quenched || !s.rst.coolantOk || s.rst.tripLow) && decide (s.rst.since + 1000000000 ≤ s.now)) s
    (served { s with rst := { s.rst with quenched := false, coolantOk := true, tripLow := false } })

/-- What the hearth still knows after a loss of input power: the flash and the fuses (R364, R370, R371, Table 15-9). -/
def Mgmt.unpowered (x : Mgmt) : Mgmt where
  seed := x.seed
  quench := x.quench
  logNext := x.logNext
  logOldest := x.logOldest
  flash := x.flash
  boots := x.boots
  fuseFw := x.fuseFw
  fuseKey := x.fuseKey
  debugLock := x.debugLock
  rootSet := x.rootSet
  rootHash := x.rootHash
  uniqueId := x.uniqueId

/-- Table 16-5: input power is lost: every domain off, the hearth included. -/
def State.powerOff (s : State) : State :=
  let t := s.cleared
  { t with
    pwr := {}
    rst := { supply := false, mirror := s.rst.mirror, coolantOk := s.rst.coolantOk, tripLow := s.rst.tripLow, rstOutLow := true }
    mgmt := s.mgmt.unpowered }

/-- INPUT_UNDERVOLTAGE (Table 16-5). -/
def execInputUndervoltage (s : State) : Step := guarded s.rst.supply s (served s.powerOff)

/-- INPUT_OVERVOLTAGE (Table 16-5). -/
def execInputOvervoltage (s : State) : Step := guarded s.rst.supply s (served s.powerOff)

/-- R351, R371, Table 16-5: the hearth powers up: BOOT_RETAIN comes from its mirror, the identity from the wrapped seed. -/
def State.hearthUp (s : State) : State :=
  let b := s.rst.mirror
  let t : State := { s with
    rst := { s.rst with supply := true, failCount := b.1, banked := b.2.1, lastStage := b.2.2 }
    mgmt := { s.mgmt with upAt := s.now, identity := s.mgmt.seed } }
  if s.mgmt.seed then t else t.log { code := 0x0D0A, unit := unitHearth }

/-- POWER_ON (R340, R385). -/
def execPowerOn (s : State) : Step := guarded (!s.rst.supply) s (served (s.hearthUp.fullReset 0 0 0))

/-- PERST_N: accepted as a full reset; deep standby ends (R341, R361). -/
def execPerstN (s : State) : Step :=
  guarded s.rst.supply s (served ({ s with mgmt := { s.mgmt with standby := false } }.fullReset 1 1 0))

/-- R341, R347, R352, R361, R376: start-up begins, at stage EARLY or in banked mode, or deep standby is entered. -/
def State.startUp (s : State) (x : Stretch) : State :=
  let before := s.service
  let t : State := { s with
    rst := { s.rst with
      stretch := none, stage := if s.rst.banked then 7 else 0, released := s.now, rstOutLow := false }
    mgmt := { s.mgmt with
      standby := x.standby, debugOpen := s.mgmt.debugOpen || s.mgmt.debugNext, debugSeen := s.mgmt.debugSeen || s.mgmt.debugNext
      debugNext := false }
    out := s.out ++ [.pin "RST_OUT_N" true] }
  t.serviceChange before

/-- RESET_RELEASE: 1 ms after the last acceptance; after a quench not before the recovery (R336, R340, R341). -/
def execResetRelease (s : State) : Step :=
  match s.rst.stretch with
  | none => idle s
  | some x =>
    guarded (s.rst.supply && decide (x.at' + 1000000 ≤ s.now)) s <|
      if x.kind = 2 then served { s with rst := { s.rst with stretch := none } }
      else guarded (!s.rst.quenched && s.rst.coolantOk && !s.rst.tripLow) s (served (s.startUp x))

/-- The module is up and no reset is in its stretch. -/
def State.running (s : State) : Bool := s.rst.supply && s.rst.stretch.isNone && !s.rst.quenched && !s.mgmt.standby

/-- DISPATCH_WATCHDOG (R340, R350). -/
def execDispatchWatchdog (s : State) : Step :=
  guarded s.running s <|
    let t := s.rstLog Err.watchdog unitDispatch
    served (if 1 ≤ s.rst.stage ∧ s.rst.stage ≤ 5 then t.startFail else t.computeReset 7 0)

/-- The state that a step leaves; the one before where it stops. -/
def stepState (s : State) (x : Step) : State :=
  match x with
  | .next t => t
  | _ => s

/-- R318: every RUNNING mailbox ends with STREAM_ABORTED. -/
def State.abortAll (s : State) : State :=
  let t := (List.range 8).foldl (fun u p => u.endStreams p Err.streamAborted none) s
  t.host.mboxes.foldl (fun u e => u.finish (e.1 / 64) (e.1 % 64) Err.streamAborted []) t

/-- R301, R318: the commands armed while the dispatch processor was down are taken, in the order of their arming writes. -/
def State.takeArmed (s : State) : State :=
  let l := sortBy (fun a b => decide (a.2.order ≤ b.2.order)) (s.host.mboxes.filter fun e => e.2.armed.isSome)
  l.foldl (fun t e => stepState t (t.takeCommand (e.1 / 64) (e.1 % 64) (e.2.armed.getD 0))) s

/-- R343: the dispatch processor is back. -/
def State.dispatchBack (s : State) : State :=
  let before := s.service
  let t := s.abortAll
  ({ t with rst := { t.rst with restarting := false } }.serviceChange before).takeArmed

/-- DISPATCH_RESTART: `digest` is that of the image in the private memory (R318, R343). -/
def execDispatchRestart (digest : BitVec 512) (s : State) : Step :=
  guarded (s.rst.restarting && s.running) s <|
    if (s.mgmt.fw.map (·.digest)) = some digest then served s.dispatchBack
    else done (.refused Err.fwHash) ((s.rstLog Err.fwHash 0x66).fullReset 1 s.rst.source s.rst.remoteId)

/-- HEARTH_WATCHDOG: the hearth restarts from its ROM and logs it; everything else runs on (R344). -/
def execHearthWatchdog (s : State) : Step := guarded s.rst.supply s (served (s.rstLog Err.watchdog))

/-- A management code recorded in MGMT_ERR_CODE and logged (R380). -/
def State.mgmtLog (s : State) (c : Code) (unit : Nat := unitHearth) (detail : Nat := 0) : State :=
  { s with mgmt := { s.mgmt with err := true, errCode := first s.mgmt.err s.mgmt.errCode c } }.log
    { code := c, unit := unit, detail := detail }

/-- HEARTH_ECC (R344, R357). -/
def execHearthEcc (s : State) : Step := guarded s.rst.supply s (served ((s.mgmtLog 0x0D10).rstLog Err.watchdog))

/-- R347: every HBM4 and LPDDR6 controller is ONLINE, the latter with ENC_READY. -/
def State.memoryReady (s : State) : Bool :=
  (List.range 8).all fun i => (s.mc (8 + i)).online && (decide (i < 6) || (s.mc (8 + i)).encReady)

/-- R347: full service is reached (Table 14-9). -/
def State.enterFull (s : State) : State :=
  { s with rst := { s.rst with stage := 6, attempt := none, fullMs := (s.now - s.rst.released) / 1000000 } }

/-- STAGE_ADVANCE: what lets stages 2 to 5 go (Table 14-5). The speed change of stage 2 and the self-tests of stage 4 are events of
the outside; units under test must be on. -/
def State.stageNext (s : State) : Option State :=
  let up (n : Nat) (t : State) : Option State := some { t with rst := { t.rst with stage := n } }
  if s.rst.stage = 2 then
    (up 3 { s with host := { s.host with linkFast := true } }).map fun t => t.askDomains ((List.range 16).map (32 + ·))
  else if s.rst.stage = 3 then (if s.memoryReady then up 4 s else none)
  else if s.rst.stage = 4 then
    (if ((List.range 40) ++ [56]).all fun d => s.domainOn d || !s.pwr.req.getLsbD d then up 5 s else none)
  else if s.rst.stage = 5 then
    (if (List.range 6).all fun e => (s.opt.engines.get {} e).calDone then some s.enterFull else none)
  else none

/-- STAGE_ADVANCE (R347). -/
def execStageAdvance (s : State) : Step :=
  guarded s.running s <|
    match s.stageNext with
    | some t => served (t.serviceChange s.service)
    | none => idle s

/-- START_TIMEOUT: full service is not reached 30 s after the release and 30 s after the acceptance (R350). -/
def execStartTimeout (s : State) : Step :=
  match s.rst.attempt with
  | none => idle s
  | some a =>
    guarded (s.running && decide (1 ≤ s.rst.stage ∧ s.rst.stage ≤ 5) && decide (max s.rst.released a + 30000000000 ≤ s.now)) s
      (served s.startFail)

/-- SERVICE.STATE has been 1 without a break for 60 s (R353, R370). -/
def State.minuteFull (s : State) : Bool :=
  match s.rst.fullSince with
  | some t => decide (t + 60000000000 ≤ s.now)
  | none => false

/-- FAIL_COUNT_CLEAR (R353). -/
def execFailCountClear (s : State) : Step :=
  guarded (s.minuteFull && s.running) s (served { s with rst := { s.rst with failCount := 0 } })

end Sys2Proof.Machine
end

