-- ==== Sys2Proof/Machine/MgmtOps.lean ====
section
/-! DEFINITION. The log as it is read, firmware images, the telemetry mirror (R362 to R370, R379, Tables 15-3, 15-4, 15-10). -/

namespace Sys2Proof.Machine

namespace Err
def serviceStateOob : Code := 0x0A06
def fwSize : Code := 0x0D01
def fwFormat : Code := 0x0D02
def fwDevice : Code := 0x0D03
def fwKey : Code := 0x0D04
def fwRollback : Code := 0x0D05
def fwSignature : Code := 0x0D06
def fwBusy : Code := 0x0D07
def svnAdvanced : Code := 0x0D08
def logOverflow : Code := 0x0D09
def identityAbsent : Code := 0x0D0A
def debugToken : Code := 0x0D0B
def debugUnlocked : Code := 0x0D0C
def oobForm : Code := 0x0D0E
def mgmtWrite : Code := 0x0D0F
def voltageFault : Code := 0x0D11
end Err

/-- One bit of CRC-32C (R362; the polynomial is the standard's, log entry 67). -/
def crcBit (c : BitVec 32) : BitVec 32 := if c.getLsbD 0 then (c >>> 1) ^^^ 0x82F63B78 else c >>> 1

/-- CRC-32C of bytes. -/
def crc32c (bs : List Byte) : BitVec 32 :=
  (bs.foldl (fun c b => (List.range 8).foldl (fun d _ => crcBit d) (c ^^^ b.zeroExtend 32)) 0xFFFFFFFF) ^^^ 0xFFFFFFFF

/-- A log record without its CRC (Table 15-3). -/
def LogRec.head (r : LogRec) : List Byte :=
  leBytes r.index 8 ++ leBytes r.ftime.toNat 8 ++ leBytes r.htime.toNat 8 ++ leBytes r.code 2 ++ leBytes (severity r.code) 1
    ++ leBytes (r.prov.toNat + 2 * r.remote.toNat + 4 * r.attention.toNat + 8 * r.addr.isSome.toNat) 1
    ++ leBytes (r.srcId % 2 ^ 14) 2 ++ leBytes r.unit 1
    ++ leBytes (match r.part with
      | some p => 128 + p % 8
      | none => 0) 1
    ++ leBytes (r.addr.getD 0 % 2 ^ 48) 8 ++ leBytes r.detail 8 ++ leBytes r.epoch.toNat 8 ++ leBytes r.boot 2 ++ leBytes 0 2

/-- A log record of 64 bytes. -/
def LogRec.bytes (r : LogRec) : List Byte := r.head ++ leBytes (crc32c r.head).toNat 4

/-- R364, R365: records from index `first` on, programmed or queued, up to `n` of them. -/
def Mgmt.records (x : Mgmt) (first n : Nat) : List LogRec :=
  ((x.flash ++ x.queue).filter fun r => decide (max first x.logOldest ≤ r.index)).take n

/-- R365: the answer of a log read: NEXT, then the records. -/
def Mgmt.logRead (x : Mgmt) (first n : Nat) : List Byte :=
  let l := x.records first n
  wordBytes [match l.getLast? with
    | some r => r.index + 1
    | none => first] ++ l.flatMap LogRec.bytes

/-- Records that the flash holds, and records of a block that is erased (R363). -/
def flashSize : Nat := 1032192
def flashBlock : Nat := 1024

/-- R363: the oldest queued record is programmed; a full ring gives up its oldest block first. -/
def Mgmt.program (x : Mgmt) : Mgmt :=
  match x.queue with
  | [] => x
  | r :: q =>
    let f := if x.flash.length < flashSize then x.flash else x.flash.drop flashBlock
    let g := f ++ [r]
    { x with flash := g, queue := q, logOldest := if x.flash.length < flashSize then x.logOldest else (g.head?.map (·.index)).getD 0 }

/-- Public keys and signatures of ML-DSA-87 in bytes (Table 15-4). -/
def pubSize : Nat := 2592
def sigSize : Nat := 4627

/-- Bytes `at'` to `at' + n - 1` of an image. -/
def slice (bs : List Byte) (at' n : Nat) : List Byte := (bs.drop at').take n

/-- The digest as the message that a signature covers. -/
def digestBytes (bs : List Byte) : List Byte := leBytes (Config.sha3 bs).toNat 64

/-- R368 step 2: MAGIC, FORMAT, BODY_OFFSET and what must be zero. -/
def fwFormatOk (bs : List Byte) : Bool :=
  let body := wordAt bs 0x1C 4
  wordAt bs 0 4 == 0x45514657 && wordAt bs 4 2 == 1 && body % 4096 == 0 && decide (0x3000 ≤ body) && wordAt bs 0x0A 2 == 0
    && decide (wordAt bs 0x0E 2 < 2) && (slice bs 0x40 192).all (· == 0)

/-- R368 step 4: the signing key stands under the fuse root. `at'` is where ROOT_PUB, SIGN_PUB and SIGN_CERT begin. -/
def Mgmt.keyOk (x : Mgmt) (bs : List Byte) (at' : Nat) (keySvn : Byte) : Bool :=
  let root := slice bs at' pubSize
  let pub := slice bs (at' + pubSize) pubSize
  x.rootSet && Config.sha3 root == x.rootHash
    && Config.mldsaOk root (digestBytes (pub ++ [keySvn])) (slice bs (at' + 2 * pubSize) sigSize)

/-- The fields of an image that later rules read. -/
def fwInfoOf (bs : List Byte) : FwInfo where
  fwSvn := wordAt bs 0x0C 1
  keySvn := wordAt bs 0x0D 1
  advance := bit (wordAt bs 0x0E 2) 0
  version := BitVec.ofNat 64 (wordAt bs 0x10 8)
  features := BitVec.ofNat 256 (wordAt bs 0x20 32)
  digest := Config.sha3 bs

/-- R368: the first check that an image fails. -/
def Mgmt.fwCheck (x : Mgmt) (bs : List Byte) : Option Code :=
  let n := wordAt bs 0x18 4
  if n ≠ bs.length ∨ n < wordAt bs 0x1C 4 + sigSize ∨ 48 * 2 ^ 20 < n then some Err.fwSize
  else if !fwFormatOk bs then some Err.fwFormat
  else if wordAt bs 6 2 ≠ 0x9600 ∨ wordAt bs 8 1 ≠ 0xB0 ∨ wordAt bs 9 1 ≠ 1 then some Err.fwDevice
  else if !x.keyOk bs 0x100 (BitVec.ofNat 8 (wordAt bs 0x0D 1)) then some Err.fwKey
  else if wordAt bs 0x0D 1 < x.fuseKey ∨ wordAt bs 0x0C 1 < x.fuseFw then some Err.fwRollback
  else if !Config.mldsaOk (slice bs 0xB20 pubSize) (digestBytes (bs.take (n - sigSize))) (bs.drop (n - sigSize)) then
    some Err.fwSignature
  else none

/-- The features that the silicon supports (Table 12-6). -/
def siliconFeatures : BitVec 256 := 0x7F000000000000007F

/-- The end of the mailbox that delivered an image, if one did. -/
def State.fwEnd (s : State) (c : Code) : State :=
  match s.mgmt.fwFrom with
  | some e => s.finish e.1 e.2 c []
  | none => s

/-- R368: an image that passes starts: stage 2 begins (R347). -/
def State.fwStart (s : State) (bs : List Byte) : State :=
  let i := fwInfoOf bs
  let t := s.fwEnd 0
  { t with
    mgmt := { t.mgmt with image := none, fw := some i, fwFrom := none }
    host := { t.host with fwVersion := i.version, offered := i.features &&& siliconFeatures }
    rst := { t.rst with stage := 2 } }.serviceChange s.service

/-- R349, R368: an image is refused: stage EARLY again, and the start attempt is over. -/
def State.fwRefuse (s : State) (c : Code) : State :=
  let t := (s.mgmtLog c unitDispatch).fwEnd c
  { t with mgmt := { t.mgmt with image := none, fwFrom := none }, rst := { t.rst with stage := 0, attempt := none } }

/-- R350, R369: an image delivered at stage EARLY: a start attempt begins. -/
def State.fwAccept (s : State) (bs : List Byte) (src : Option (Nat × Nat)) : State :=
  { s with mgmt := { s.mgmt with image := some bs, fwFrom := src }, rst := { s.rst with stage := 1, attempt := some s.now } }

/-- Two's complement of `n` bytes. -/
def intBytes (v : Int) (n : Nat) : List Byte := leBytes (BitVec.ofInt (8 * n) v).toNat n

/-- The contents of the telemetry mirror but for FORMAT and SEQ: offset and bytes (Table 15-10). -/
def State.telemetry (s : State) : List (Nat × List Byte) :=
  [(0x10, leBytes s.htime.toNat 8), (0x18, leBytes s.sync.ft.toNat 8),
   (0x100, (List.range 72).flatMap fun i => intBytes (s.mgmt.temps.get 0 i) 2),
   (0x200, (List.range 62).flatMap fun d => leBytes (s.mgmt.rails.get 0 d) 2),
   (0x280, leBytes s.pwr.status 4 ++ leBytes s.pwr.cap 4 ++ leBytes s.pwr.input 4 ++ leBytes s.pwr.therm 4),
   (0x290, leBytes s.pwr.energy.toNat 8), (0x298, leBytes (s.mgmt.alert + s.rst.coolantOk.toNat * 2 ^ 32) 8),
   (0x300, (List.range 36).flatMap fun k => leBytes (s.linkStatus k) 4),
   (0x400, (List.range 6).flatMap fun e => (List.range 9).flatMap fun n => leBytes ((s.opt.engines.get {} e).power n) 4)]
    ++ (List.range 8).flatMap fun p =>
      let x := s.part p
      let at' := 0x1000 + 0x400 * p
      [(at', leBytes x.energy.toNat 8),
       (at' + 8, (List.range 3).flatMap fun t => leBytes (x.memCur.get 0 t).toNat 8 ++ leBytes (x.memPeak.get 0 t).toNat 8),
       (at' + 0x38, leBytes (s.pmemReg p 0) 4),
       (at' + 0x100, (List.range 64).flatMap fun k => leBytes (x.streamEnergy.get 0 k).toNat 8)]

/-- A refresh of the mirror: SEQ passes an odd value and comes to rest at the next even one (R379). -/
def State.refresh (s : State) : State :=
  let seq := s.mgmt.mirrorSeq + 2
  let l := (0, leBytes 1 8) :: (8, leBytes seq 8) :: s.telemetry
  { s with mgmt := { s.mgmt with
    mirrorSeq := seq, mirror := l.foldl (fun t e => t.setList 0 e.1 e.2) [] } }

end Sys2Proof.Machine
end

