-- ==== Sys2Proof/Machine/MgmtCmds.lean ====
section
/-! DEFINITION. Commands of the hearth: firmware, log, out-of-band, sensors, identity, keys, debug, remote reset (chapter 15). -/

namespace Sys2Proof.Machine

/-- FW_LOAD (R305, R350, R368, R369): the image that the host hands over. While one is verified, or after one has started, it is
refused with FW_BUSY. -/
def execFwLoad (f m : Nat) (image : List Byte) (s : State) : Step :=
  s.mboxRow f m 0x10 fun x t =>
    guarded (image.length == bits (x.arg 1) 31 0) s <|
      if t.rst.stage = 0 then served ((t.fwAccept image (some (f, m))).beginCmd f m)
      else (t.mgmtLog Err.fwBusy (unitHost + f)).endCmd f m Err.fwBusy

/-- FW_VERIFY (R349, R368). -/
def execFwVerify (s : State) : Step :=
  match s.mgmt.image with
  | none => idle s
  | some bs =>
    guarded (s.running && s.rst.stage == 1) s <|
      match s.mgmt.fwCheck bs with
      | none => served (s.fwStart bs)
      | some c => done (.refused c) (s.fwRefuse c)

/-- LOG_READ (R365). -/
def execLogRead (f m : Nat) (s : State) : Step :=
  s.mboxRow f m 0x11 fun x t => t.okCmd f m (t.mgmt.logRead (x.arg 0) (x.arg 1))

/-- SVN_ADVANCE (R370). -/
def execSvnAdvance (s : State) : Step :=
  match s.mgmt.fw with
  | none => idle s
  | some i =>
    guarded (s.minuteFull && s.running && i.advance && (decide (s.mgmt.fuseFw < i.fwSvn) || decide (s.mgmt.fuseKey < i.keySvn))) s <|
      let a := max s.mgmt.fuseFw (min 127 i.fwSvn)
      let b := max s.mgmt.fuseKey (min 15 i.keySvn)
      served ({ s with mgmt := { s.mgmt with fuseFw := a, fuseKey := b } }.mgmtLog Err.svnAdvanced unitHearth (a + 256 * b))

/-- R360: the response to an out-of-band command: a status code, then the data. -/
def State.oob (s : State) (c : Code) (data : List Byte) : Step :=
  done (if c = 0 then .ok data else .refused c) { s with out := s.out ++ [.oob (leBytes c 2 ++ data)] }

/-- R360: a malformed request. -/
def State.oobBad (s : State) : Step := (s.mgmtLog Err.oobForm).oob Err.oobForm []

/-- OOB_RESET (R360, Table 15-2). -/
def execOobReset (arg : Word) (s : State) : Step :=
  guarded s.rst.supply s <|
    let w := arg.toNat
    let kind := w % 4
    if kind = 3 ∨ bits w 7 2 ≠ 0 ∨ w / 2 ^ 16 ≠ 0 then s.oobBad
    else if kind = 0 then (s.computeReset 4 0).oob 0 []
    else if kind = 1 then (s.acceptFull 4 0).oob 0 []
    else match s.blockReset (bits w 15 8) 4 with
      | .ok t => t.oob 0 []
      | .error c => (s.rstLog c).oob c []

/-- OOB_BANK_CLEAR (R353, R360). -/
def execOobBankClear (s : State) : Step := guarded s.rst.supply s (s.bankClear.oob 0 [])

/-- OOB_SET_CAP (R325, R360). -/
def execOobSetCap (arg : Word) (s : State) : Step :=
  guarded s.rst.supply s <|
    let w := arg.toNat
    if 2 ^ 16 ≤ w then s.oobBad
    else
      let t := s.capPut w
      if capClamp w = w then t.oob 0 (leBytes w 2)
      else (t.pwrLog Err.capRange 0x08 unitHearth).oob Err.capRange (leBytes (capClamp w) 2)

/-- OOB_STANDBY: a full reset at whose release deep standby is entered (R361). -/
def execOobStandby (s : State) : Step :=
  guarded s.rst.supply s <|
    let t := s.acceptFull 4 0
    let u : State := { t with rst := { t.rst with stretch := t.rst.stretch.map fun x => { x with standby := true } } }
    u.oob 0 []

/-- OOB_WAKE: deep standby ends by a full reset; outside deep standby there is nothing to leave (R361). -/
def execOobWake (s : State) : Step :=
  guarded s.rst.supply s <|
    let t : State := { s with mgmt := { s.mgmt with standby := false } }
    if s.mgmt.standby then (t.acceptFull 4 0).oob 0 [] else s.oob 0 []

/-- OOB_LOG_READ (R360, R365). -/
def execOobLogRead (first : Word) (count : Nat) (s : State) : Step :=
  guarded s.rst.supply s <|
    if count = 0 ∨ 16 < count then s.oobBad else s.oob 0 (s.mgmt.logRead first.toNat count)

/-- OOB_ALERT: ALERT_CAUSE and ATTN, then the clearing (R360, R366). -/
def execOobAlert (arg : Word) (s : State) : Step :=
  guarded s.rst.supply s <|
    let x := s.mgmt
    let data := leBytes x.alert 4 ++ leBytes (x.attnCode + x.attnCount * 2 ^ 16) 4
    if 2 ≤ arg.toNat then s.oobBad
    else (if arg = 1 then { s with mgmt := { x with attention := false, quench := false } } else s).oob 0 data

/-- OOB_DEBUG_CHALLENGE: a nonce of 32 bytes, drawn anew (R360, R376). -/
def execOobDebugChallenge (s : State) : Step :=
  guarded s.rst.supply s <|
    let q := s.draws 4
    let n := q.1.foldr (fun w v => w.toNat + 2 ^ 64 * v) 0
    { q.2 with mgmt := { q.2.mgmt with dbgNonce := some (BitVec.ofNat 256 n) } }.oob 0 (leBytes n 32)

/-- PLDM_SENSOR_READ: temperatures as IDs 1 to 72, rails as 101 to 162, input power as 200 (R358, R360). -/
def execPldmSensorRead (id : Nat) (s : State) : Step :=
  guarded s.rst.supply s <|
    if 1 ≤ id ∧ id ≤ 72 then s.oob 0 (intBytes (s.mgmt.temps.get 0 (id - 1)) 2)
    else if 101 ≤ id ∧ id ≤ 162 then s.oob 0 (leBytes (s.mgmt.rails.get 0 (id - 101)) 2)
    else if id = 200 then s.oob 0 (leBytes s.pwr.power 2)
    else s.oobBad

/-- PLDM_FW_UPDATE: an image over the out-of-band bus, handled as by FW_LOAD (R362, R369). -/
def execPldmFwUpdate (image : List Byte) (s : State) : Step :=
  guarded s.running s <|
    if s.rst.stage = 0 then (s.fwAccept image none).oob 0 []
    else if s.rst.stage ≤ 5 then (s.mgmtLog Err.fwBusy).oob Err.fwBusy []
    else (s.mgmtLog Err.serviceStateOob).oob Err.serviceStateOob []

/-- A measurement block (Table 15-6). -/
def State.measurement (s : State) (i : Nat) : List Byte :=
  match i with
  | 1 => leBytes (Config.spdmDigest 1).toNat 64
  | 2 => leBytes (Config.spdmDigest 2).toNat 64
  | 3 => leBytes ((s.mgmt.fw.map fun x => x.digest.toNat).getD 0) 64
  | 4 =>
    let x := s.mgmt.fw.getD {}
    leBytes x.version.toNat 8 ++ leBytes x.fwSvn 1 ++ leBytes x.keySvn 1
  | 5 => leBytes (s.mgmtReg 0x28) 4 ++ leBytes s.mgmt.rootHash.toNat 64
  | 6 => leBytes (s.mgmt.identity.toNat + 2 * s.mgmt.debugOpen.toNat + 4 * s.mgmt.debugSeen.toNat) 1
  | _ => if s.rake.valid then leBytes s.rake.planId.toNat 8 ++ leBytes s.rake.features.toNat 32 else List.replicate 40 0

/-- Bytes of a certificate or of a signature, which no rule gives (log entry 68). -/
def State.signed (s : State) (data : List Byte) : Step :=
  let q := s.free
  done (.ok (data ++ leBytes (Config.spdmDigest q.1).toNat 64)) q.2

/-- SPDM_REQUEST (R371, R372). Without an identity, certificate, challenge and signed measurements are answered with an error, which is logged (R380). -/
def execSpdmRequest (x : Spdm) (s : State) : Step :=
  guarded s.rst.supply s <|
    let bad := done (.refused Err.identityAbsent) (s.mgmtLog Err.identityAbsent)
    match x with
    | .certificate => if s.mgmt.identity then s.signed [] else bad
    | .challenge => if s.mgmt.identity then s.signed [] else bad
    | .measurements sign i =>
      let data := if 1 ≤ i ∧ i ≤ 7 then s.measurement i else (List.range 7).flatMap fun j => s.measurement (j + 1)
      if !sign then done (.ok data) s else if s.mgmt.identity then s.signed data else bad
    | .other => served s

/-- R373: a link key installed; a re-key of an encrypting link holds it until both slots are new. -/
def State.linkKey (s : State) (k : Nat) (tx : Bool) : State :=
  let again := s.encActive k || (s.link k).rekey != 0
  let t := s.modLink k fun l => { l with
    keyTx := l.keyTx || tx, keyRx := l.keyRx || !tx, groupsTx := if tx then 0 else l.groupsTx
    rekey := if !again then 0 else if l.rekey = (if tx then 2 else 1) then 0 else if tx then 1 else 2 }
  t.touch k s

/-- KEY_SET (R373). -/
def execKeySet (slot : KeySlot) (key : BitVec 256) (s : State) : Step :=
  guarded s.running s <|
    let put (i : Nat) : State := { s with mgmt := { s.mgmt with keys := s.mgmt.keys.set none i (some key.toNat) } }
    match slot with
    | .linkTx k => guarded (decide (k < 36)) s (served ((put (2 * k)).linkKey k true))
    | .linkRx k => guarded (decide (k < 36)) s (served ((put (2 * k + 1)).linkKey k false))
    | .management => served { s with mgmt := { s.mgmt with mgmtKey := some key.toNat } }

/-- R376: a token of UNIQUE_ID, nonce and scope, keys and signature (log entry 69 for its layout). -/
def Mgmt.tokenOk (x : Mgmt) (bs : List Byte) : Bool :=
  match x.dbgNonce with
  | none => false
  | some n =>
    wordAt bs 0 8 == x.uniqueId.toNat && wordAt bs 8 32 == n.toNat
      && x.keyOk bs 49 (BitVec.ofNat 8 (wordAt bs 48 1))
      && Config.mldsaOk (slice bs (49 + pubSize) pubSize) (digestBytes (bs.take 48)) (bs.drop (49 + 2 * pubSize + sigSize))

/-- R376: an accepted token: seed, identity and keys go, the log says so, and a full reset follows. -/
def State.debugUnlock (s : State) : State :=
  let t : State := { s with mgmt := { s.mgmt with
    seed := false, identity := false, keys := [], mgmtKey := none, dbgNonce := none, debugNext := true } }
  (t.mgmtLog Err.debugUnlocked).fullReset 1 4 0

/-- DEBUG_TOKEN (R376). -/
def execDebugToken (token : List Byte) (s : State) : Step :=
  guarded s.rst.supply s <|
    if s.mgmt.tokenOk token then served s.debugUnlock
    else done (.refused Err.debugToken) ({ s with mgmt := { s.mgmt with dbgNonce := none } }.mgmtLog Err.debugToken)

/-- R374: a REMOTE_RESET in its form. -/
def resetForm (x : Pkt) : Bool :=
  x.len == 64 && x.payload.length == 64 && x.cls == 0 && decide (x.f 0 1 < 2) && x.f 1 7 == 0 && decide (x.f 16 2 < 2 ^ 14)
    && x.f 18 14 == 0

/-- R375: a remote reset is authorised. -/
def State.resetAuth (s : State) (x : Pkt) : Bool :=
  let nonce := x.f 8 8
  let ft := s.sync.ft.toNat
  match s.mgmt.mgmtKey with
  | none => false
  | some k =>
    x.f 16 2 == s.fab.id && Config.kmac (BitVec.ofNat 256 k) (x.payload.take 32) == BitVec.ofNat 256 (x.f 32 32)
      && decide (nonce ≤ ft + 1000000) && decide (ft ≤ nonce + 1000000) && decide (s.mgmt.lastNonce.toNat < nonce)

/-- R340, R375: what the endpoint does with a REMOTE_RESET: LAST_NONCE takes the nonce of one that is authorised. -/
def State.remoteIn (s : State) (x : Pkt) : Perf × State :=
  if !resetForm x then
    (.refused Err.mgmtForm, s.log { code := Err.mgmtForm, unit := unitHearth, srcId := some x.src, remote := true })
  else if s.resetAuth x then (.ok, { s with mgmt := { s.mgmt with lastNonce := BitVec.ofNat 64 (x.f 8 8) } })
  else (.refused Err.remoteResetRefused,
    { s with rst := { s.rst with err := true, errCode := first s.rst.err s.rst.errCode Err.remoteResetRefused } }.log
      { code := Err.remoteResetRefused, unit := unitHearth, srcId := some x.src, addr := some rstBase, remote := true })

/-- REMOTE_RESET (R340, R374, R375). -/
def execRemoteReset (x : Pkt) (s : State) : Step :=
  guarded (s.running && decide (5 ≤ s.rst.stage ∧ s.rst.stage ≤ 6) && x.aux == 0x10) s <|
    match s.receive tyMgmt x fun t => t.remoteIn x with
    | .next t =>
      if t.mgmt.lastNonce = s.mgmt.lastNonce then .next t
      else served (if x.f 0 1 = 0 then t.computeReset 5 x.src else t.acceptFull 5 x.src)
    | o => o

/-- Nominal voltage of the rail of a domain, mV: of a core by the operating point (Table 13-4), else open (log entry 70). -/
def State.nominal (s : State) (d : Nat) : Nat :=
  if d < 32 then (([600, 640, 680, 720, 760, 800, 830, 860] : List Nat)[s.pwr.op]?).getD 600 else Config.railNominal d

/-- A rail outside ±8 % of its nominal voltage (R359). -/
def railOut (v nominal : Nat) : Bool := decide (100 * v < 92 * nominal) || decide (108 * nominal < 100 * v)

/-- R359: the rail of a powered domain after a reading. -/
def State.railJudge (s : State) (d v : Nat) : State :=
  let put (bad : Option Nat) (said : Bool) (t : State) : State := { t with mgmt := { t.mgmt with
    railBad := t.mgmt.railBad.set none d bad, railLogged := t.mgmt.railLogged.set false d said } }
  if !s.domainOn d || !railOut v (s.nominal d) then put none false s
  else
    let t0 := (s.mgmt.railBad.get none d).getD s.now
    let said := s.mgmt.railLogged.get false d
    if !said ∧ t0 + 100000 ≤ s.now then put (some t0) true (s.mgmtLog Err.voltageFault unitHearth (d + v * 2 ^ 16))
    else put (some t0) said s

/-- VOLTAGE_SAMPLE: rails 0 to 61, in mV (R358, R359). -/
def execVoltageSample (rails : List Nat) (s : State) : Step :=
  guarded (s.rst.supply && rails.length == 62 && rails.all fun v => decide (v < 2 ^ 16)) s <|
    let t : State := { s with mgmt := { s.mgmt with rails := Tab.setList 0 [] 0 rails } }
    served ((List.range 62).foldl (fun u d => u.railJudge d ((rails[d]?).getD 0)) t)

/-- LOG_PROGRAM: one record into the flash; once there is room, what was dropped is reported (R363). -/
def execLogProgram (s : State) : Step :=
  guarded (s.rst.supply && !s.mgmt.queue.isEmpty) s <|
    let t : State := { s with mgmt := s.mgmt.program }
    served (if t.mgmt.dropPend = 0 then t
      else { t with mgmt := { t.mgmt with dropPend := 0 } }.mgmtLog Err.logOverflow unitHearth t.mgmt.dropPend)

/-- BOOT_RETAIN as it is mirrored. -/
def Rst.retain (x : Rst) : Nat × Bool × Nat := (x.failCount, x.banked, x.lastStage)

/-- BOOT_RETAIN_MIRROR (R351). -/
def execBootRetainMirror (s : State) : Step :=
  guarded (s.rst.supply && decide (s.rst.retain ≠ s.rst.mirror)) s (served { s with rst := { s.rst with mirror := s.rst.retain } })

/-- TELEMETRY_REFRESH (R297, R379). -/
def execTelemetryRefresh (s : State) : Step := guarded s.rst.supply s (served s.refresh)

/-- A write of a management register refused (R378). -/
def State.mgmtRegRefuse (s : State) (w : Who) (off : Nat) : State :=
  { s with mgmt := { s.mgmt with err := true, errCode := first s.mgmt.err s.mgmt.errCode Err.mgmtWrite } }.log
    { code := Err.mgmtWrite, unit := w.unit, srcId := if w.remote then some w.srcId else none, part := s.partOfUnit w.unit
      addr := some (cfgBase + 0x1700000 + off), remote := w.remote }

/-- ALERT_CAUSE_WRITE: by the hearth, or by the physical function through BAR2 (R366, R378). -/
def execAlertCauseWrite (w : Who) (v : BitVec 32) (s : State) : Step :=
  if !w.remote && (w.unit == unitHearth || w.unit == unitHost) then
    served { s with mgmt := { s.mgmt with
      attention := s.mgmt.attention && !v.getLsbD 1, quench := s.mgmt.quench && !v.getLsbD 2 } }
  else done (.refused Err.mgmtWrite) (s.mgmtRegRefuse w 0x08)

end Sys2Proof.Machine
end

