-- ==== Sys2Proof/Machine/RegOps.lean ====
section
/-! DEFINITION. Writes of configuration space: who may write which block, and what each register takes (R5, R6, R122, R156, R182,
R216, R248, R270, R293, R337, R354, R378). -/

namespace Sys2Proof.Machine

/-- A register as one write changes it: `v` its whole value with the written bytes in place, `c` the same with the bytes that
were not written zero. -/
structure RegVal where
  v : Nat
  c : Nat
deriving DecidableEq, Repr

/-- Registers of core `c`: CC_WAIT_LIMIT and the bits cleared by a written 1 (Tables 03-12, 04-9, 05-14, R122). -/
def Core.regPut (k : Core) (o : Nat) (x : RegVal) : Core :=
  let clears := bit x.c
  if o = 0x00 then (if clears 2 then { k with err := false, errCode := 0 } else k)
  else if o = 0x08 then { k with waitLimit := BitVec.ofNat 32 x.v }
  else if o = 0x100 then
    let e : MeRegs := { k.me with
      accRange := k.me.accRange && !clears 0, accInf := k.me.accInf && !clears 1, accNan := k.me.accNan && !clears 2 }
    { k with me := if clears 3 then { e with err := false, errCode := 0 } else e }
  else if o = 0x200 then
    let e := { k.ve with cvt := k.ve.cvt.w1c x.c }
    { k with ve := if clears 5 then { e with err := false, errCode := 0 } else e }
  else if o = 0x300 ∨ o = 0x400 then
    { k with mv := k.mv.mod {} ((o - 0x300) / 0x100) fun m =>
        let e := { m with cvt := m.cvt.w1c x.c }
        if clears 5 then { e with err := false, errCode := 0 } else e }
  else k

/-- The answer of a write and the state after it; a refusal has been recorded. -/
abbrev RegRes := Option Code × State

/-- Block of a slice or controller (Tables 06-12 to 06-17). -/
def State.mcPut (s : State) (w : Who) (i o : Nat) (x : RegVal) : RegRes :=
  if o = 8 ∧ 8 ≤ i then
    let t1 := x.v % 256
    let t2 := x.v / 256 % 256
    let q := threshClamp t1 t2
    let t := s.threshSet i q
    if q = (t1, t2) then (none, t) else (some Err.permission, t.memRegRefuse w none (mcBase i + 8) Err.permission)
  else if o = 0xC then (none, s.modMc i fun m => { m with cvt := (BitVec.ofNat 5 m.cvt &&& ~~~BitVec.ofNat 5 x.c).toNat })
  else (none, s)

/-- A change of a register of a memory block, or its refusal. -/
def State.memTry (s : State) (w : Who) (p addr : Nat) (r : Except Code State) : RegRes :=
  match r with
  | .error c => (some c, s.memRegRefuse w (some p) addr c)
  | .ok t => (none, t)

/-- Memory block of partition `p` (Tables 06-18 to 06-24, R131, R139, R394). -/
def State.pmemPut (s : State) (w : Who) (p o : Nat) (x : RegVal) : RegRes :=
  let a := pmemBase p + o
  let word (i : Nat) : Nat := x.v / 2 ^ (64 * i) % 2 ^ 64
  let m := (s.part p).mem
  let defer (base size : Nat) : RegRes :=
    s.memTry w p a (if s.deferOk p base size then
        .ok (s.modPart p fun y => { y with mem := { y.mem with deferBase := base, deferSize := size } })
      else .error Err.regionLoad)
  if 0x1000 ≤ o then (if o < 0x3000 then s.memTry w p a (s.regionPut p ((o - 0x1000) / 32) (word 0) (word 1) (word 2) (word 3)) else (none, s))
  else if 0x40 ≤ o then (if o < 0x60 then s.memTry w p a (s.splitPut p ((o - 0x40) / 4) x.v) else (none, s))
  else if o = 0 then
    (none, if bit x.c 0 then s.modPart p fun y => { y with mem := { y.mem with
        err := false, errCode := 0, faultAddr := 0, faultSrc := 0 } }
      else s)
  else if o = 0x18 then defer (x.v % 2 ^ 48) m.deferSize
  else if o = 0x20 then defer m.deferBase (x.v % 2 ^ 40)
  else if o = 0x30 then (none, if bit x.c 0 then s.panFlush p (bit x.c 1) else s)
  else (none, s)

/-- A change of a register of the sync unit, or its refusal. -/
def State.syncTry (s : State) (w : Who) (o : Nat) (r : Except Code Sync) (grp : Nat := 0) : RegRes :=
  match r with
  | .error c => (some c, s.syncRegRefuse w o c grp)
  | .ok y => (none, { s with sync := y })

/-- The partition that holds a watch slot (Table 07-2). -/
def Sync.splitOfSlot (x : Sync) (slot : Nat) : Option Nat :=
  (List.range 8).find? fun p =>
    let sp := x.splits.get {} p
    decide (sp.first ≤ slot) && decide (slot < sp.first + sp.count)

/-- A requester of configuration space at a watch slot. A remote module has no slot of its own there: its slots are allotted to
WATCH_REQ messages (Table 07-2). -/
def State.slotWho (s : State) (w : Who) (slot : Nat) : SWho :=
  { unit := if w.remote then 0x68 else w.unit
    part := if w.unit = unitDispatch then s.sync.splitOfSlot slot else s.partOfUnit w.unit
    srcId := if w.remote then w.srcId else s.fab.id }

/-- Registers of the sync unit (Tables 07-13 to 07-22, R164, R183). -/
def State.syncPut (s : State) (w : Who) (o : Nat) (x : RegVal) : RegRes :=
  let y := s.sync
  if 0x20000 ≤ o then
    if o < 0x40000 then
      let slot := (o - 0x20000) / 32
      let r := s.slotWho w slot
      let word (i : Nat) : Word := BitVec.ofNat 64 (x.v / 2 ^ (64 * i))
      s.watchWrite r slot (word 0) (word 1) (word 2) (word 3) r.waiter none
    else (none, s)
  else if 0x4000 ≤ o then (if o < 0x4020 then s.syncTry w o (y.splitPut ((o - 0x4000) / 4) x.v) else (none, s))
  else if 0x2000 ≤ o then s.syncTry w o (y.barrierPut (y.group (x.v % 2 ^ 16)).part ((o - 0x2000) / 8) x.v) (x.v % 2 ^ 16 / 256)
  else if 0x1000 ≤ o then
    (none, if o < 0x1400 then { s with sync := { y with groups := y.groups.set {} ((o - 0x1000) / 4) (groupOf (x.v % 256)) } } else s)
  else if o = 0 then
    (none, if bit x.c 0 then { s with sync := { y with err := false, errCode := 0, faultAddr := 0, faultSrc := 0 } } else s)
  else if o = 0x20 then
    let f := s.free
    (none, { f.2 with sync := f.2.sync.ftWrite (x.v % 2 ^ 15) f.1.toNat })
  else (none, s)

/-- A change of a fabric register, or its refusal. -/
def State.fabTry (s : State) (w : Who) (o : Nat) (r : Except Code State) : RegRes :=
  match r with
  | .error c => (some c, s.fabRegRefuse w o)
  | .ok t => (none, t)

/-- Fabric registers (Tables 08-16 to 08-19, R197, R206 to R208, R214). -/
def State.fabPut (s : State) (w : Who) (o : Nat) (x : RegVal) : RegRes :=
  let f := s.fab
  if 0x90000 ≤ o then (none, s)
  else if 0x80000 ≤ o then s.fabTry w o (s.groupPut ((o - 0x80000) / 16) (BitVec.ofNat 128 x.v))
  else if 0x40000 ≤ o then s.fabTry w o (s.routePut ((o - 0x40000) / 16) (BitVec.ofNat 128 x.v))
  else if 0x1000 ≤ o ∧ o < 0x1480 ∧ (o - 0x1000) % 0x20 = 4 then
    let k := (o - 0x1000) / 0x20
    (none, (s.modPort k fun p => { p with encEn := bit x.v 0 }).touch k s)
  else match o with
    | 0x00 => (none, if bit x.c 0 then { s with fab := { f with err := false, errCode := 0, hdrSet := false, hdr0 := 0, hdr1 := 0 } } else s)
    | 0x08 => (none, { s with fab := { f with id := x.v % 2 ^ 14 } })
    | 0x0C => (none, { s with fab := { f with timeout := max 5 (min 300 (x.v % 2 ^ 16)), retryMax := bits x.v 19 16 } })
    | 0x10 => (none, { s with fab := { f with w1 := bits x.v 7 0, w2 := bits x.v 15 8, w3 := bits x.v 23 16 } })
    | 0x14 => (none, s.ctxReset (x.c % 2 ^ 14) (bit x.c 14))
    | _ => (none, s)

/-- Optics registers (Tables 09-10 to 09-14, R245). -/
def State.optPut (s : State) (w : Who) (o : Nat) (x : RegVal) : RegRes :=
  let y := s.opt
  if 0x10000 ≤ o ∧ o < 0x12400 ∧ o % 0x100 = 8 then
    match s.assignPut ((o - 0x10000) / 0x100) x.v with
    | .error c => (some c, s.optRegRefuse w o c)
    | .ok t => (none, t)
  else match o with
    | 0x00 => (none, if bit x.c 0 then { s with opt := { y with
        err := false, errCode := 0, faultLink := 0, faultLane := 0, faultDir := 0 } } else s)
    | 0x08 => (none, State.touchAll s { s with opt := { y with gaps := bit x.v 0, minLanes := bits x.v 4 1, spareCal := bits x.v 20 5 } })
    | _ => (none, s)

/-- Rake block of partition `p` (Table 10-14, R268, R269). -/
def Part.rakePut (q : Part) (o : Nat) (x : RegVal) : Part :=
  match o with
  | 0x4000 => { q with traceBase := x.v % 2 ^ 48, traceIndex := 0 }
  | 0x4008 => { q with traceSize := x.v % 2 ^ 40, traceIndex := 0 }
  | 0x4020 => { q with memPeak := q.memPeak.set 0 0 0 }
  | 0x4030 => { q with memPeak := q.memPeak.set 0 1 0 }
  | 0x4040 => { q with memPeak := q.memPeak.set 0 2 0 }
  | _ => q

/-- Snapshot block of a partition (Tables 11-7 to 11-9). -/
def Snap.regPut (y : Snap) (o : Nat) (x : RegVal) : Snap :=
  if o = 0 then (if bit x.c 0 then { y with err := false, errCode := 0 } else y)
  else if 0x08 ≤ o ∧ o < 0x40 then y.putWord (o / 8) x.v
  else if o = 0x40 then y.putWord 8 x.v
  else if o = 0x48 then y.putWord 9 x.v
  else if 0x100 ≤ o ∧ o < 0x1100 then y.putRegion ((o - 0x100) / 16) x.v
  else y

/-- Power block (Tables 13-9, 13-10, R320, R328, R333). -/
def State.pwrPut (s : State) (w : Who) (o : Nat) (x : RegVal) : RegRes :=
  let y := s.pwr
  match o with
  | 0x00 =>
    let z := { y with inputLimit := y.inputLimit && !bit x.c 9 }
    (none, { s with pwr := if bit x.c 8 then { z with err := false, errCode := 0 } else z })
  | 0x10 =>
    (match s.domainsPut (BitVec.ofNat 64 x.v) with
      | (false, t) => (none, t)
      | (true, t) => (some Err.domainBusy, t.pwrRegRefuse w o Err.domainBusy))
  | 0x20 =>
    let a := x.v % 256
    let b := x.v / 256 % 256
    let q := thermClamp a b
    let t : State := { s with pwr := { y with tWarn := q.1, tThrottle := q.2 } }
    if q = (a, b) then (none, t) else (some Err.threshRange, t.pwrRegRefuse w o Err.threshRange)
  | _ => (none, s)

/-- The size of the register at offset `o` of configuration space, as a write is cut (Tables 06-4, 07-3, 08-11, 08-12). -/
def regSize (o : Nat) : Nat :=
  if 0x1040000 ≤ o ∧ o < 0x1060000 then
    let q := o % 0x4000
    if 0x1000 ≤ q ∧ q < 0x3000 then 32 else if 0x08 ≤ q ∧ q < 0x30 then 8 else 4
  else if 0x1080000 ≤ o ∧ o < 0x1100000 then
    let q := o - 0x1080000
    if 0x20000 ≤ q then 32 else if 0x2000 ≤ q ∧ q < 0x4000 then 8 else 4
  else if 0x1100000 ≤ o ∧ o < 0x1200000 then (if 0x40000 ≤ o - 0x1100000 then 16 else 4)
  else if 0x1210000 ≤ o ∧ o < 0x1220000 then (if o % 0x100 < 8 then 4 else 8)
  else if 0x1310000 ≤ o ∧ o < 0x1400000 then 8
  else if 0x1400000 ≤ o ∧ o < 0x1500000 then
    let q := o % 0x4000
    if q < 8 then 4 else if 0x100 ≤ q then 16 else 8
  else if 0x1500010 ≤ o ∧ o < 0x1500020 then 8
  else 4

/-- The register at offset `o` is one that requester `w` may write. -/
def State.cfgMay (s : State) (w : Who) (o : Nat) : Bool :=
  let hearth := !w.remote && w.unit == unitHearth
  let host := !w.remote && w.unit == unitHost
  if o < 0x1000000 then w.isHost
  else if o < 0x1080000 then w.isDispatch
  else if o < 0x1100000 then
    w.isDispatch || (decide (0x10A0000 ≤ o) && decide (o < 0x10C0000)
      && s.sync.owns (s.slotWho w ((o - 0x10A0000) / 32)) ((o - 0x10A0000) / 32))
  else if o < 0x1200000 then w.isDispatch
  else if o < 0x1300000 then w.isDispatch || hearth
  else if o < 0x1500000 then w.isDispatch
  else if o < 0x1600000 then w.isDispatch || (host && decide (o = 0x1500010 ∨ o = 0x1500020))
  else if o < 0x1700000 then w.isHost && o == 0x1600000
  else hearth || (host && o == 0x1700008)

/-- A write that its block does not admit: recorded in the block's registers, and logged (R11). -/
def State.cfgRefuse (s : State) (w : Who) (o : Nat) : State :=
  let a := cfgBase + o
  let c := cfgCode a
  if o < 0x1000000 then s.memRegRefuse w none a c
  else if o < 0x1080000 then s.memRegRefuse w (if 0x1040000 ≤ o ∧ o < 0x1060000 then some ((o - 0x1040000) / 0x4000) else none) a c
  else if o < 0x1100000 then
    s.syncRegRefuse w (o - 0x1080000) c (if 0x1081000 ≤ o ∧ o < 0x1081400 then (o - 0x1081000) / 4 else 0)
  else if o < 0x1200000 then s.fabRegRefuse w (o - 0x1100000)
  else if o < 0x1300000 then s.optRegRefuse w (o - 0x1200000) c
  else if o < 0x1400000 then
    { s with rake := { s.rake with err := true, errCode := first s.rake.err s.rake.errCode c } }.log
      { code := c, unit := w.unit, srcId := if w.remote then some w.srcId else none, part := s.partOfUnit w.unit
        addr := some a, remote := w.remote }
  else if o < 0x1500000 then
    (if o < 0x1420000 then s.modSnap ((o - 0x1400000) / 0x4000) fun x => { x with err := true, errCode := first x.err x.errCode c } else s).log
      { code := c, unit := w.unit, srcId := if w.remote then some w.srcId else none
        part := if o < 0x1420000 then some ((o - 0x1400000) / 0x4000) else none, addr := some a, remote := w.remote }
  else if o < 0x1600000 then s.pwrRegRefuse w (o - 0x1500000) c
  else if o < 0x1700000 then
    { s with rst := { s.rst with err := true, errCode := first s.rst.err s.rst.errCode c } }.log
      { code := c, unit := w.unit, srcId := if w.remote then some w.srcId else none, part := s.partOfUnit w.unit
        addr := some a, remote := w.remote }
  else s.mgmtRegRefuse w (o - 0x1700000)

/-- One register written by a requester that may write it. What is reserved or read-only takes nothing (R5, R6). -/
def State.regPut (s : State) (w : Who) (o : Nat) (x : RegVal) : RegRes :=
  if o < 0x200000 then (none, s.modCore (o / 0x10000) fun k => k.regPut (o % 0x10000) x)
  else if o < 0x1000000 then (none, s)
  else if o < 0x1008000 then s.mcPut w ((o - 0x1000000) / 0x1000) (o % 0x1000) x
  else if o < 0x1010000 then (none, s)
  else if o < 0x1016000 then s.mcPut w (8 + (o - 0x1010000) / 0x1000) (o % 0x1000) x
  else if o < 0x1020000 then (none, s)
  else if o < 0x1022000 then s.mcPut w (14 + (o - 0x1020000) / 0x1000) (o % 0x1000) x
  else if o < 0x1040000 then (none, s)
  else if o < 0x1060000 then s.pmemPut w ((o - 0x1040000) / 0x4000) (o % 0x4000) x
  else if o < 0x1080000 then (none, s)
  else if o < 0x1100000 then s.syncPut w (o - 0x1080000) x
  else if o < 0x1200000 then s.fabPut w (o - 0x1100000) x
  else if o < 0x1300000 then s.optPut w (o - 0x1200000) x
  else if o = 0x1300000 then
    (none, if bit x.c 0 then { s with rake := { s.rake with err := false, errCode := 0 } } else s)
  else if o < 0x1310000 then (none, s)
  else if o < 0x1350000 then (none, s.modPart ((o - 0x1310000) / 0x8000) fun q => q.rakePut (o % 0x8000) x)
  else if o < 0x1400000 then (none, s)
  else if o < 0x1420000 then (none, s.modSnap ((o - 0x1400000) / 0x4000) fun y => y.regPut (o % 0x4000) x)
  else if o < 0x1500000 then (none, s)
  else if o < 0x1600000 then s.pwrPut w (o - 0x1500000) x
  else if o = 0x1600000 then
    (none, if bit x.c 4 then { s with rst := { s.rst with err := false, errCode := 0 } } else s)
  else if o = 0x1700000 then
    (none, if bit x.c 0 then { s with mgmt := { s.mgmt with err := false, errCode := 0 } } else s)
  else if o = 0x1700008 then
    (none, { s with mgmt := { s.mgmt with
      attention := s.mgmt.attention && !bit x.c 1, quench := s.mgmt.quench && !bit x.c 2 } })
  else (none, s)

/-- A write of bytes cut into registers: offset, size, lowest byte written, bytes written. -/
def cutRegs : Nat → Nat → List Byte → List (Nat × Nat × Nat × List Byte)
  | 0, _, _ => []
  | _, _, [] => []
  | n + 1, o, bs =>
    let z := regSize o
    let b := o / z * z
    let k := b + z - o
    (b, z, o - b, bs.take k) :: cutRegs n (b + z) (bs.drop k)

/-- The value that a register takes from the bytes written to it. -/
def State.regVal (s : State) (e : Nat × Nat × Nat × List Byte) : RegVal :=
  let old := s.regBytes (cfgBase + e.1) e.2.1
  { v := leNat (old.take e.2.2.1 ++ e.2.2.2 ++ old.drop (e.2.2.1 + e.2.2.2.length))
    c := leNat (List.replicate e.2.2.1 0 ++ e.2.2.2) }

/-- A write of configuration space: refused whole where the requester may not write a register of it; else each register in
ascending order, up to the first that refuses. -/
def State.cfgWrite (s : State) (w : Who) (a : Nat) (data : List Byte) : RegRes :=
  let l := cutRegs data.length (a - cfgBase) data
  match l.find? fun e => !s.cfgMay w e.1 with
  | some e => (some (cfgCode (cfgBase + e.1)), s.cfgRefuse w e.1)
  | none => l.foldl (fun r e => match r.1 with
      | some _ => r
      | none => r.2.regPut w e.1 (r.2.regVal e)) (none, s)

end Sys2Proof.Machine
end

