-- ==== Sys2Proof/Machine/AccessOps.lean ====
section
/-! DEFINITION. Requests from the host, from another module and as they stand; BAR0 as it is written and as it reads (R297 to R300,
R309, R315, R316, R379). -/

namespace Sys2Proof.Machine

/-- A refusal by configuration space as the answer of a memory target. -/
def RegRes.mem (x : RegRes) : MemRes × State :=
  match x.1 with
  | some c => (.refused c, x.2)
  | none => (.ok [], x.2)

/-- R309: what a virtual function of partition `p` reaches: regions of the partition, and counters of its groups. -/
def State.reaches (s : State) (p : Nat) (r : Req) : Bool :=
  match zoneOf r.addr r.len with
  | .config | .none => false
  | .sync =>
    let g := s.sync.group ((r.addr - 0x001000000000) / 8)
    g.valid && g.part == p
  | _ => match s.hit (List.range 8) r.addr r.len with
    | some h => h.part == p
    | none => false

/-- A request to memory, to the counter window or to configuration space (R126, R130, R309). -/
def State.request' (s : State) (r : Req) : MemRes × State :=
  let vf := !r.remote && decide (0x71 ≤ r.unit) && decide (r.unit < 0x80)
  let bound := if vf then (s.fn (r.unit - 0x70)).bound else none
  if vf && !(match bound with
      | some p => s.reaches p r
      | none => false) then s.memRefuse r bound none Err.permission
  else if r.kind = .write ∧ zoneOf r.addr r.len = .config then
    (s.cfgWrite { unit := r.unit, remote := r.remote, srcId := r.srcId } r.addr r.data).mem
  else s.memReq r

/-- A request of function `f` (R315, R316). -/
def hostReq (f : Nat) (kind : Kind) (a n : Nat) (data : List Byte) : Req :=
  { unit := unitHost + f, kind := kind, addr := a, len := n, data := data }

/-- R315: a refused BAR2 access: the first code and address since the event was cleared, and the event. -/
def State.bar2Fault (s : State) (f : Nat) (c : Code) (a : Nat) : State :=
  (s.modFn f fun x => if x.events.getLsbD 4 then x else { x with bar2Code := c, bar2Addr := a }).setEvent f 4

/-- R315: an access through BAR2 at offset `off`. What is held at its target is made again. -/
def State.bar2 (s : State) (f off n : Nat) (r : Nat → Req) : Step :=
  guarded (s.fnOn f && decide (0 < n) && decide (off + n ≤ 2 ^ (30 + (s.fn f).bar2Size))) s <|
    let a := (s.fn f).bar2Base + off
    if 4096 < a % 4096 + n then
      done (.refused Err.bar2Boundary)
        ((s.bar2Fault f Err.bar2Boundary a).log { code := Err.bar2Boundary, unit := unitHost + f, addr := some a
                                                  part := (s.fn f).bound })
    else
      let x := s.request' (r a)
      match x.1 with
      | .ok bs => done (.ok bs) x.2
      | .held => done .held s
      | .full => done .full s
      | .refused c => done (.refused c) (x.2.bar2Fault f c a)

/-- How a transfer of DMA_COPY stands. -/
inductive Dma
  | moved (bs : List Byte)
  | waits
  | refused (c : Code) (a : Nat)
deriving DecidableEq, Repr

/-- R316: pieces of a transfer to device memory, in ascending order. -/
def State.dmaIn (f : Nat) : List (Nat × Nat) → List Byte → State → Dma × State
  | [], _, s => (.moved [], s)
  | e :: l, bs, s =>
    let x := s.request' (hostReq f .write e.1 e.2 (bs.take e.2))
    match x.1 with
    | .ok _ => State.dmaIn f l (bs.drop e.2) x.2
    | .refused c => (.refused c e.1, x.2)
    | _ => (.waits, s)

/-- R316: pieces of a transfer from device memory. What comes before a refusal is in host memory already. -/
def State.dmaOut (f : Nat) : List (Nat × Nat) → List Byte → State → Dma × List Byte × State
  | [], acc, s => (.moved acc, acc, s)
  | e :: l, acc, s =>
    let x := s.request' (hostReq f .read e.1 e.2 [])
    match x.1 with
    | .ok bs => State.dmaOut f l (acc ++ bs) x.2
    | .refused c => (.refused c e.1, acc, x.2)
    | _ => (.waits, acc, s)

/-- R316: the addition after the last byte, by the dispatch processor for the function's partition, or for the owner of the counter
where the physical function names it. -/
def State.dmaCount (s : State) (f i : Nat) : Option Code × State :=
  let p := if f = 0 then some (s.sync.group i).part else (s.fn f).bound
  s.counterAdd { unit := unitDispatch, part := p } i 1

/-- R316: every byte has moved. -/
def State.dmaEnd (s : State) (f m : Nat) (x : Mbox) : Step :=
  if bit (x.arg 0) 1 then
    match s.dmaCount f (bits (x.arg 0) 31 16) with
    | (none, t) => t.okCmd f m
    | (some c, t) => t.endCmd f m c (counterAddr (bits (x.arg 0) 31 16))
  else s.okCmd f m

/-- R299, R300: a host write to mailbox `m` at offset `q`. Nothing is taken while the mailbox runs or is armed; a word written at
offset 0 arms the mailbox after the bytes beside it are in place. -/
def State.mboxWrite (s : State) (f m q : Nat) (data : List Byte) : Step :=
  let x := s.mbox f m
  let n := data.length
  if x.state = 1 ∨ x.armed.isSome ∨ (q < 0x80 ∧ 0x10 < q + n) ∨ (q < 4 ∧ (q ≠ 0 ∨ n < 4)) then served (s.discard f)
  else if q = 0 then
    (s.modMbox f m fun y => { y with bytes := y.bytes.setList 0 4 (data.drop 4) }).armMbox f m (leNat (data.take 4))
  else served (s.modMbox f m fun y => { y with bytes := y.bytes.setList 0 q data })

/-- R297, R298: a host write to BAR0 of function `f`. -/
def State.bar0Write (s : State) (f off : Nat) (data : List Byte) : Step :=
  let n := data.length
  guarded (s.fnOn f && decide (0 < n) && decide (off + n ≤ 2 ^ 24) && decide (off % 4096 + n ≤ 4096)) s <|
    if 0x10000 ≤ off ∧ off < 0x50000 then s.mboxWrite f ((off - 0x10000) / 4096) (off % 4096) data
    else if 0x80000 ≤ off ∧ off < 0x88000 then served (s.modFn f fun x => { x with msix := x.msix.setList 0 (off - 0x80000) data })
    else if off ≤ 0xC ∧ 0xC < off + n then
      let c := BitVec.ofNat 5 ((data.getD (0xC - off) 0).toNat)
      served (s.modFn f fun x => { x with events := x.events &&& ~~~c })
    else served s

/-- The words of Tables 12-3 and 12-4 in function `f`. -/
def State.idWords (s : State) (f : Nat) : List Byte :=
  let x := s.fn f
  let running := fields ((List.range 64).map fun m => (m, ((s.mbox f m).state == 1).toNat))
  leBytes 0x00B09600 4 ++ leBytes 0x01010101 4
    ++ leBytes (fields [(0, s.service), (2, x.session.toNat), (3, f), (7, x.bound.getD 0), (10, x.bound.isSome.toNat)]) 4
    ++ leBytes x.events.toNat 4 ++ leBytes s.host.fwVersion.toNat 8 ++ leBytes running 8
    ++ leBytes s.host.offered.toNat 32 ++ leBytes x.agreed.toNat 32 ++ leBytes x.discards.toNat 8 ++ leBytes x.notifyLost.toNat 8
    ++ leBytes (x.bar2Code % 2 ^ 16 + x.bar2Addr % 2 ^ 48 * 2 ^ 16) 8 ++ leBytes x.bar2Base 8

/-- The bits of header byte `q` that a field of Table 12-5 holds: RSVD bits read as zero (R6), although the table gives them Access RW
(DESIGN CHOICE, log entry 91). -/
def mboxMask (q : Nat) : Byte :=
  match q with
  | 2 | 3 | 7 | 0xC | 0xD | 0xE | 0xF => 0
  | 6 => 1
  | 9 => 7
  | _ => 255

/-- Byte `q` of a mailbox (Table 12-5). -/
def Mbox.byteAt (x : Mbox) (q : Nat) : Byte :=
  if 0x10 ≤ q ∧ q < 0x20 then
    ((leBytes x.doneSeq 2 ++ leBytes x.state 2 ++ leBytes x.status 2 ++ leBytes x.rlen 2 ++ leBytes x.detail.toNat 8).getD (q - 0x10) 0)
  else if 0x20 ≤ q ∧ q < 0x80 then 0
  else x.bytes.get 0 q &&& mboxMask q

/-- Byte `off` of BAR0 of function `f` (Table 12-2). A virtual function sees no partition but its own in the mirror (R379). -/
def State.bar0Byte (s : State) (f off : Nat) : Byte :=
  if off < 0x80 then (s.idWords f).getD off 0
  else if 0x10000 ≤ off ∧ off < 0x50000 then (s.mbox f ((off - 0x10000) / 4096)).byteAt (off % 4096)
  else if 0x80000 ≤ off ∧ off < 0x88000 then (s.fn f).msix.get 0 (off - 0x80000)
  else if 0x100000 ≤ off ∧ off < 0x1000000 then
    let q := off - 0x100000
    if 0x1000 ≤ q ∧ q < 0x3000 ∧ f ≠ 0 ∧ (s.fn f).bound ≠ some ((q - 0x1000) / 0x400) then 0 else s.mgmt.mirror.get 0 q
  else 0

/-- `n` bytes of BAR0 from `off`. -/
def State.bar0Bytes (s : State) (f off n : Nat) : List Byte := (List.range n).map fun i => s.bar0Byte f (off + i)

/-- The request that a memory-form packet makes at this module (R188, R189). The UNIT of a WRITE or READ_REQ is not in the packet
(log entry 71). -/
def Pkt.req (x : Pkt) (unit : Nat) (kind : Kind) (data : List Byte) (len : Nat) (ecc : Ecc) (evictBad : Option Nat) : Req where
  unit := unit
  srcId := x.src
  remote := true
  kind := kind
  addr := x.offset
  len := len
  data := data
  prov := x.prov
  epochLo := x.epochLo
  op := bits (x.payload.getD 1 0).toNat 5 4
  ty := bits (x.payload.getD 1 0).toNat 3 0
  seq := leNat ((x.payload.drop 4).take 4)
  ecc := ecc
  evictBad := evictBad
  origin := .packet x.src x.cls x.vc x.seq x.dst x.mcast

/-- A memory target's answer as that of a packet's target. -/
def MemRes.perf : MemRes → Perf
  | .ok _ => .ok
  | .held => .held
  | .full => .full
  | .refused c => .refused c

/-- R202: a memory-form packet performed. -/
def State.packetMem (x : Pkt) (r : Req) (s : State) : Perf × State :=
  let q := s.request' r
  match q.1 with
  | .ok bs => (.ok, if r.kind = .read then q.2.sendResp x.src x.cls x.seq x.offset bs else q.2)
  | o => (o.perf, q.2)

/-- R109, R202: the request that a READ_RESP answers. -/
def State.asked (s : State) (x : Pkt) : Option OutPkt :=
  (s.fab.reads.filter (fun o => o.pkt.dst == x.src)
    ++ ((s.fab.txOf (.uni x.src)).map fun t => t.out.filter fun o => o.acked.isEmpty).getD []).find? fun o =>
      o.pkt.seq == x.seq && o.pkt.ty == tyReadReq && o.pkt.offset == x.offset

/-- R109: bytes that came from another module, put into the buffers of a descriptor. -/
def Active.arrive (a : Active) (src addr : Nat) (bs : List Byte) : Active :=
  let b := if a.d.srcRemote ∧ a.d.srcId = src then (a.fill 0 0 addr bs).fill 1 0 addr bs else a
  if a.d.dstRemote ∧ a.d.dstId = src then b.fill 3 0 addr bs else b

/-- A READ_RESP reaches the unit that asked; the request is complete. -/
def State.answered (s : State) (x : Pkt) (o : OutPkt) : State :=
  let t := ({ s with fab := { s.fab with reads := s.fab.reads.filter fun q => q != o } } : State).modTx (.uni x.src) fun h => { h with
    out := h.out.map fun q => if q = o then { q with acked := [x.src] } else q }
  match o.who with
  | .mover c m seq => t.modActive c m seq fun a => a.arrive x.src x.offset x.payload
  | _ => t

end Sys2Proof.Machine
end

