-- ==== Sys2Proof/Machine/AccessCmds.lean ====
section
/-! DEFINITION. The commands that reach memory or registers: requests at a memory target, memory-form packets, DMA_COPY, BAR2,
register writes (R5, R130, R144, R189, R202, R315, R316). -/

namespace Sys2Proof.Machine

/-- A request as it stands, of the kind of its row. -/
def State.plainReq (s : State) (r : Req) (ok : Bool) : Step :=
  guarded (ok && decide (0 < r.len)) s
    (let q := { r with origin := .plain }
     memAnswer q (s.request' q))

/-- MEM_READ (R130). -/
def execMemRead (a : Access) (s : State) : Step :=
  match a with
  | .plain r => s.plainReq r (r.kind == .read || r.kind == .fetch)
  | .mover x ecc bad => s.moveRead x ecc bad

/-- MEM_WRITE (R130). -/
def execMemWrite (a : Access) (s : State) : Step :=
  match a with
  | .plain r => s.plainReq r (r.kind == .write && r.len == r.data.length)
  | .mover x ecc bad => s.moveWrite x false ecc bad

/-- MEM_ACCUMULATE (R144). -/
def execMemAccumulate (a : Access) (s : State) : Step :=
  match a with
  | .plain r => s.plainReq r (r.kind == .acc && r.len == r.data.length)
  | .mover x ecc bad => s.moveWrite x true ecc bad

/-- WRITE: a packet of a remote module, at its target (R202). -/
def execWrite (x : Pkt) (ecc : Ecc) (evictBad : Option Nat) (s : State) : Step :=
  guarded (x.ty == tyWrite) s <|
    s.receive tyWrite x fun t =>
      let u := t.free
      State.packetMem x (x.req (u.1.toNat % 256) .write x.payload x.len ecc evictBad) u.2

/-- READ_REQ: read at its target, and answered with READ_RESP (R202). -/
def execReadReq (x : Pkt) (ecc : Ecc) (evictBad : Option Nat) (s : State) : Step :=
  guarded (x.ty == tyReadReq) s <|
    s.receive tyReadReq x fun t =>
      let u := t.free
      State.packetMem x (x.req (u.1.toNat % 256) .read [] x.len ecc evictBad) u.2

/-- ACCUMULATE: the elements after the prefix, at the target's adder (R144, R189). -/
def execAccumulate (x : Pkt) (ecc : Ecc) (evictBad : Option Nat) (s : State) : Step :=
  guarded (x.ty == tyAccumulate) s <|
    s.receive tyAccumulate x fun t =>
      State.packetMem x (x.req (x.payload.getD 0 0).toNat .acc (x.payload.drop 16) (x.len - 16) ecc evictBad) t

/-- READ_RESP: what no request waits for is dropped as a duplicate (R202, Table 08-21). -/
def execReadResp (x : Pkt) (s : State) : Step :=
  guarded (x.ty == tyReadResp && x.dst % 2 ^ 14 == s.fab.id) s <|
    let s := s.takenIn x
    if !x.formOk then done (.refused Err.hdrForm) (s.dropNak Err.hdrForm x)
    else if (s.fab.routes.get {} s.fab.id).fence then done (.refused Err.fenced) (s.dropNak Err.fenced x s.fab.id)
    else match s.asked x with
      | none => idle s
      | some o => served (s.answered x o)

/-- DMA_COPY to device memory. `data` are the bytes read from host memory: all of them, or, with `fail`, those before the failure of
PCI Express or host translation (R316). -/
def execDmaCopyToDevice (f m : Nat) (data : List Byte) (fail : Bool) (s : State) : Step :=
  s.mboxAgain f m 0x41 fun x t =>
    let n := x.arg 3
    guarded (!bit (x.arg 0) 0 && (if fail then decide (data.length < n) else data.length == n)) s <|
      let r := State.dmaIn f (pieces 4096 (x.arg 2) data.length) data t
      match r.1 with
      | .refused c a => r.2.endCmd f m c a
      | .waits => done .held (t.beginCmd f m)
      | .moved _ => if fail then r.2.noCmd f m Err.dmaFault (x.arg 1 + data.length) else r.2.dmaEnd f m x

/-- DMA_COPY to host memory. `fail`: PCI Express or host translation fails after so many bytes (R316). -/
def execDmaCopyToHost (f m : Nat) (fail : Option Nat) (s : State) : Step :=
  s.mboxAgain f m 0x41 fun x t =>
    let n := min (x.arg 3) (fail.getD (x.arg 3))
    guarded (bit (x.arg 0) 0 && (fail.all fun k => decide (k < x.arg 3))) s <|
      let r := State.dmaOut f (pieces 4096 (x.arg 2) n) [] t
      let u : State := { r.2.2 with out := r.2.2.out ++ [.hostWrite (x.arg 1) r.2.1] }
      match r.1 with
      | .refused c a => u.endCmd f m c a
      | .waits => done .held (t.beginCmd f m)
      | .moved _ => if fail.isSome then u.noCmd f m Err.dmaFault (x.arg 1 + n) else u.dmaEnd f m x

/-- BAR2_READ (R315). -/
def execBar2Read (f off len : Nat) (s : State) : Step := s.bar2 f off len fun a => hostReq f .read a len []

/-- BAR2_WRITE (R315). -/
def execBar2Write (f off : Nat) (data : List Byte) (s : State) : Step :=
  s.bar2 f off data.length fun a => hostReq f .write a data.length data

/-- REGISTER_WRITE: a register takes the write by its access code, or its block refuses it (R5, R297). -/
def execRegisterWrite (x : RegTarget) (s : State) : Step :=
  match x with
  | .bar0 f off data => s.bar0Write f off data
  | .config w a data =>
    guarded (decide (cfgBase ≤ a ∧ a + data.length ≤ cfgBase + cfgSize) && !data.isEmpty) s (answer (s.cfgWrite w a data))

end Sys2Proof.Machine
end

