-- ==== Sys2Proof/Machine/Matrix.lean ====
section
/-! DEFINITION. Matrix instructions (R48 to R66): each is a bundle with one slot of its own. -/

namespace Sys2Proof.Machine

/-- MM_LD (R48). -/
def execMmLd (c : Nat) (cls : Cls) (s : BitVec 1) (ga gb gc : G) (ty : BitVec 3) (scaling : BitVec 2) (x : State) : Step :=
  slotMm c (.ld cls s ga gb gc ty scaling) x

/-- MM_STREAM (R56). -/
def execMmStream (c : Nat) (cls : Cls) (s : BitVec 1) (base rows : BitVec 10) (ga gb gc : G) (ty : BitVec 3) (scaling : BitVec 2) (ovr : BitVec 1) (x : State) : Step :=
  slotMm c (.stream cls s base rows ga gb gc ty scaling ovr) x

/-- MM_ZERO (R48). -/
def execMmZero (c : Nat) (base rows : BitVec 10) (int : BitVec 1) (s : State) : Step := slotMm c (.zero base rows int) s

/-- MM_ACC_LD (R65). -/
def execMmAccLd (c : Nat) (base rows : BitVec 10) (ga : G) (form : Form) (s : State) : Step := slotMm c (.accld base rows ga form) s

end Sys2Proof.Machine
end

