-- ==== Sys2Proof/Machine/Move.lean ====
section
/-! DEFINITION. Move instructions (R106, R111): each is a bundle with one slot of its own. -/

namespace Sys2Proof.Machine

/-- MV_GO (R106, R110). -/
def execMvGo (c : Nat) (m : BitVec 1) (ga : G) (s : State) : Step := slotMv c (.go m ga) s

/-- MV_ACCST (R111). -/
def execMvAccst (c : Nat) (m : BitVec 1) (ga gb : G) (row : BitVec 10) (pairs : BitVec 9) (form : Form) (mode : BitVec 2) (s : State) : Step := slotMv c (.accst m ga gb row pairs form mode) s

end Sys2Proof.Machine
end

