-- ==== Sys2Proof/Machine/Scalar.lean ====
section
/-! DEFINITION. Scalar instructions (R96 to R100, R112, R117): each is a bundle with one slot of its own. -/

namespace Sys2Proof.Machine

/-- SC_ADD (R96). -/
def execScAdd (c : Nat) (gd ga gb : G) (s : State) : Step := slotSc c (.alu .add gd ga gb) s

/-- SC_SUB (R96). -/
def execScSub (c : Nat) (gd ga gb : G) (s : State) : Step := slotSc c (.alu .sub gd ga gb) s

/-- SC_AND (R96). -/
def execScAnd (c : Nat) (gd ga gb : G) (s : State) : Step := slotSc c (.alu .and gd ga gb) s

/-- SC_OR (R96). -/
def execScOr (c : Nat) (gd ga gb : G) (s : State) : Step := slotSc c (.alu .or gd ga gb) s

/-- SC_XOR (R96). -/
def execScXor (c : Nat) (gd ga gb : G) (s : State) : Step := slotSc c (.alu .xor gd ga gb) s

/-- SC_SHL (R96). -/
def execScShl (c : Nat) (gd ga gb : G) (s : State) : Step := slotSc c (.alu .shl gd ga gb) s

/-- SC_SHR (R96). -/
def execScShr (c : Nat) (gd ga gb : G) (s : State) : Step := slotSc c (.alu .shr gd ga gb) s

/-- SC_SRA (R96). -/
def execScSra (c : Nat) (gd ga gb : G) (s : State) : Step := slotSc c (.alu .sra gd ga gb) s

/-- SC_MUL (R96). -/
def execScMul (c : Nat) (gd ga gb : G) (s : State) : Step := slotSc c (.alu .mul gd ga gb) s

/-- SC_ADDI (R96). -/
def execScAddi (c : Nat) (gd ga : G) (imm : BitVec 38) (s : State) : Step := slotSc c (.addi gd ga imm) s

/-- SC_MOVHI (R96). -/
def execScMovhi (c : Nat) (gd ga : G) (imm : BitVec 26) (s : State) : Step := slotSc c (.movhi gd ga imm) s

/-- SC_CMPEQ (R96). -/
def execScCmpeq (c : Nat) (gd ga gb : G) (s : State) : Step := slotSc c (.alu .cmpeq gd ga gb) s

/-- SC_CMPLT (R96). -/
def execScCmplt (c : Nat) (gd ga gb : G) (s : State) : Step := slotSc c (.alu .cmplt gd ga gb) s

/-- SC_CMPLTU (R96). -/
def execScCmpltu (c : Nat) (gd ga gb : G) (s : State) : Step := slotSc c (.alu .cmpltu gd ga gb) s

/-- SC_LD (R97). -/
def execScLd (c : Nat) (gd ga : G) (imm : BitVec 38) (s : State) : Step := slotSc c (.ld gd ga imm) s

/-- SC_ST (R97). -/
def execScSt (c : Nat) (ga gb : G) (imm : BitVec 38) (s : State) : Step := slotSc c (.st ga gb imm) s

/-- SC_BR (R98, R99). -/
def execScBr (c : Nat) (imm : BitVec 38) (s : State) : Step := slotSc c (.br imm) s

/-- SC_BRNZ (R98, R99). -/
def execScBrnz (c : Nat) (ga : G) (imm : BitVec 38) (s : State) : Step := slotSc c (.brnz ga imm) s

/-- SC_BRZ (R98, R99). -/
def execScBrz (c : Nat) (ga : G) (imm : BitVec 38) (s : State) : Step := slotSc c (.brz ga imm) s

/-- SC_LOOP (R98, R99). -/
def execScLoop (c : Nat) (ga : G) (imm : BitVec 38) (s : State) : Step := slotSc c (.loop ga imm) s

/-- SC_BRSUM (R100). -/
def execScBrsum (c : Nat) (ga : G) (sk : BitVec 2) (cond : Fin 9) (imm : BitVec 38) (s : State) : Step := slotSc c (.brsum ga sk cond imm) s

/-- SC_END (R98). -/
def execScEnd (c : Nat) (s : State) : Step := slotSc c (.done) s

/-- SC_RDSUM (R96). -/
def execScRdsum (c : Nat) (gd : G) (sk : BitVec 2) (word : BitVec 1) (s : State) : Step := slotSc c (.rdsum gd sk word) s

/-- SC_WAIT (R112). -/
def execScWait (c : Nat) (ga gb : G) (s : State) : Step := slotSc c (.wait ga gb) s

/-- SC_SIG (R96). -/
def execScSig (c : Nat) (ga gb : G) (s : State) : Step := slotSc c (.sig ga gb) s

/-- SC_WAITT (R112). -/
def execScWaitt (c : Nat) (ga : G) (s : State) : Step := slotSc c (.waitt ga) s

/-- SC_FTIME (R96). -/
def execScFtime (c : Nat) (gd : G) (s : State) : Step := slotSc c (.ftime gd) s

/-- SR_SEED (R42). -/
def execSrSeed (c : Nat) (ga : G) (s : State) : Step := slotSc c (.seed ga) s

/-- SC_SQUASH (R117, R118). -/
def execScSquash (c : Nat) (ga : G) (s : State) : Step := slotSc c (.squash ga) s

/-- SC_EXTB (R108). -/
def execScExtb (c : Nat) (ga : G) (s : State) : Step := slotSc c (.extb ga) s

end Sys2Proof.Machine
end

