-- ==== Sys2Proof/Machine/Vector.lean ====
section
/-! DEFINITION. Vector instructions (R72 to R87): each is a bundle with one slot of its own. -/

namespace Sys2Proof.Machine

/-- VE_LD (R72). -/
def execVeLd (c : Nat) (vd : VReg) (pm : Pm) (gs : G) (s : State) : Step := slotVe c (.ld vd pm gs) s

/-- VE_LDB (R72). -/
def execVeLdb (c : Nat) (vd : VReg) (pm : Pm) (gs : G) (w : Seg) (s : State) : Step := slotVe c (.ldb vd pm gs w) s

/-- VE_ST (R72). -/
def execVeSt (c : Nat) (va : VReg) (gs : G) (off len : BitVec 8) (s : State) : Step := slotVe c (.st va gs off len) s

/-- VE_ACCRD (R76). -/
def execVeAccrd (c : Nat) (vd : VReg) (pm : Pm) (mode : BitVec 2) (row : BitVec 10) (int : BitVec 1) (sf : Option (BitVec 2)) (s : State) : Step := slotVe c (.accrd vd pm mode row int sf) s

/-- VE_ADD_F32 (R74). -/
def execVeAddF32 (c : Nat) (vd va : VReg) (b : Src2) (pm : Pm) (s : State) : Step := slotVe c (.bin .addF32 vd va b pm) s

/-- VE_SUB_F32 (R74). -/
def execVeSubF32 (c : Nat) (vd va : VReg) (b : Src2) (pm : Pm) (s : State) : Step := slotVe c (.bin .subF32 vd va b pm) s

/-- VE_MUL_F32 (R74). -/
def execVeMulF32 (c : Nat) (vd va : VReg) (b : Src2) (pm : Pm) (s : State) : Step := slotVe c (.bin .mulF32 vd va b pm) s

/-- VE_FMA_F32 (R74). -/
def execVeFmaF32 (c : Nat) (vd va : VReg) (b : Src2) (vc : VReg) (pm : Pm) (s : State) : Step := slotVe c (.tri .fmaF32 vd va b vc pm) s

/-- VE_FMS_F32 (R74). -/
def execVeFmsF32 (c : Nat) (vd va : VReg) (b : Src2) (vc : VReg) (pm : Pm) (s : State) : Step := slotVe c (.tri .fmsF32 vd va b vc pm) s

/-- VE_ADD_BF16 (R74). -/
def execVeAddBf16 (c : Nat) (vd va : VReg) (b : Src2) (pm : Pm) (s : State) : Step := slotVe c (.bin .addBF16 vd va b pm) s

/-- VE_MUL_BF16 (R74). -/
def execVeMulBf16 (c : Nat) (vd va : VReg) (b : Src2) (pm : Pm) (s : State) : Step := slotVe c (.bin .mulBF16 vd va b pm) s

/-- VE_FMA_BF16 (R74). -/
def execVeFmaBf16 (c : Nat) (vd va : VReg) (b : Src2) (vc : VReg) (pm : Pm) (s : State) : Step := slotVe c (.tri .fmaBF16 vd va b vc pm) s

/-- VE_ADD_I32 (R74). -/
def execVeAddI32 (c : Nat) (vd va : VReg) (b : Src2) (pm : Pm) (s : State) : Step := slotVe c (.bin .addI32 vd va b pm) s

/-- VE_SUB_I32 (R74). -/
def execVeSubI32 (c : Nat) (vd va : VReg) (b : Src2) (pm : Pm) (s : State) : Step := slotVe c (.bin .subI32 vd va b pm) s

/-- VE_SHL_I32 (R74). -/
def execVeShlI32 (c : Nat) (vd va : VReg) (b : Src2) (pm : Pm) (s : State) : Step := slotVe c (.bin .shlI32 vd va b pm) s

/-- VE_SHR_I32 (R74). -/
def execVeShrI32 (c : Nat) (vd va : VReg) (b : Src2) (pm : Pm) (s : State) : Step := slotVe c (.bin .shrI32 vd va b pm) s

/-- VE_AND (R74). -/
def execVeAnd (c : Nat) (vd va : VReg) (b : Src2) (pm : Pm) (s : State) : Step := slotVe c (.bin .and vd va b pm) s

/-- VE_OR (R74). -/
def execVeOr (c : Nat) (vd va : VReg) (b : Src2) (pm : Pm) (s : State) : Step := slotVe c (.bin .or vd va b pm) s

/-- VE_XOR (R74). -/
def execVeXor (c : Nat) (vd va : VReg) (b : Src2) (pm : Pm) (s : State) : Step := slotVe c (.bin .xor vd va b pm) s

/-- VE_CMP_F32 (R70, R74). -/
def execVeCmpF32 (c : Nat) (cc : CmpC) (pd : PReg) (va : VReg) (b : Src2) (pm : Pm) (s : State) : Step := slotVe c (.cmpF cc pd va b pm) s

/-- VE_CMP_I32 (R74). -/
def execVeCmpI32 (c : Nat) (cc : CmpC) (pd : PReg) (va : VReg) (b : Src2) (pm : Pm) (s : State) : Step := slotVe c (.cmpI cc pd va b pm) s

/-- VE_MIN_F32 (R74). -/
def execVeMinF32 (c : Nat) (vd va : VReg) (b : Src2) (pm : Pm) (s : State) : Step := slotVe c (.bin .minF32 vd va b pm) s

/-- VE_MAX_F32 (R74). -/
def execVeMaxF32 (c : Nat) (vd va : VReg) (b : Src2) (pm : Pm) (s : State) : Step := slotVe c (.bin .maxF32 vd va b pm) s

/-- VE_ABS_F32 (R72). -/
def execVeAbsF32 (c : Nat) (vd va : VReg) (pm : Pm) (s : State) : Step := slotVe c (.un .absF32 vd va pm) s

/-- VE_NEG_F32 (R72). -/
def execVeNegF32 (c : Nat) (vd va : VReg) (pm : Pm) (s : State) : Step := slotVe c (.un .negF32 vd va pm) s

/-- VE_SEL (R72). -/
def execVeSel (c : Nat) (ps : PReg) (vd va : VReg) (b : Src2) (pm : Pm) (s : State) : Step := slotVe c (.sel ps vd va b pm) s

/-- VE_MOV (R72). -/
def execVeMov (c : Nat) (vd va : VReg) (pm : Pm) (s : State) : Step := slotVe c (.un .mov vd va pm) s

/-- VE_PAND (R72). -/
def execVePand (c : Nat) (pd pa pb : PReg) (s : State) : Step := slotVe c (.plog .and pd pa pb) s

/-- VE_POR (R72). -/
def execVePor (c : Nat) (pd pa pb : PReg) (s : State) : Step := slotVe c (.plog .or pd pa pb) s

/-- VE_PXOR (R72). -/
def execVePxor (c : Nat) (pd pa pb : PReg) (s : State) : Step := slotVe c (.plog .xor pd pa pb) s

/-- VE_PNOT (R72). -/
def execVePnot (c : Nat) (pd pa : PReg) (s : State) : Step := slotVe c (.pnot pd pa) s

/-- VE_CVT (R78). -/
def execVeCvt (c : Nat) (vd va : VReg) (given : Option VReg) (pm : Pm) (gs : G) (mode : BitVec 2) (target source : Num.Ty) (scaling : BitVec 2) (half : BitVec 1) (s : State) : Step := slotVe c (.cvt vd va given pm gs mode target source scaling half) s

/-- VE_SCODE (R79). -/
def execVeScode (c : Nat) (vd va : VReg) (pm : Pm) (ty : Num.Ty) (s : State) : Step := slotVe c (.scode vd va pm ty) s

/-- VE_FN_F32 (R85). -/
def execVeFnF32 (c : Nat) (vd va : VReg) (pm : Pm) (tbl : BitVec 3) (s : State) : Step := slotVe c (.fn false false vd va pm 0 tbl) s

/-- VE_FND_F32 (R85). -/
def execVeFndF32 (c : Nat) (vd va : VReg) (pm : Pm) (tbl : BitVec 3) (s : State) : Step := slotVe c (.fn true false vd va pm 0 tbl) s

/-- VE_FN_BF16 (R85). -/
def execVeFnBf16 (c : Nat) (vd va : VReg) (pm : Pm) (mode : BitVec 2) (tbl : BitVec 3) (s : State) : Step := slotVe c (.fn false true vd va pm mode tbl) s

/-- VE_FND_BF16 (R85). -/
def execVeFndBf16 (c : Nat) (vd va : VReg) (pm : Pm) (mode : BitVec 2) (tbl : BitVec 3) (s : State) : Step := slotVe c (.fn true true vd va pm mode tbl) s

/-- VE_RSUM_F32 (R75). -/
def execVeRsumF32 (c : Nat) (vd va : VReg) (pm : Pm) (w : Seg) (s : State) : Step := slotVe c (.red .sum vd va pm w) s

/-- VE_RMAX_F32 (R75). -/
def execVeRmaxF32 (c : Nat) (vd va : VReg) (pm : Pm) (w : Seg) (s : State) : Step := slotVe c (.red .max vd va pm w) s

/-- VE_RAMAX_F32 (R75). -/
def execVeRamaxF32 (c : Nat) (vd va : VReg) (pm : Pm) (w : Seg) (s : State) : Step := slotVe c (.red .amax vd va pm w) s

/-- VE_SUMM (R81). -/
def execVeSumm (c : Nat) (sd : BitVec 2) (va : VReg) (pm pc : PReg) (mag merge : BitVec 1) (s : State) : Step := slotVe c (.summ sd va pm pc mag merge) s

/-- VE_TLD (R84). -/
def execVeTld (c : Nat) (t : BitVec 4) (gs : G) (s : State) : Step := slotVe c (.tld t gs) s

end Sys2Proof.Machine
end

