-- ==== Sys2Proof/Machine/Dispatch.lean ====
section
/-! DEFINITION. The meaning of each command: one arm per row of the table of operations and events. -/

namespace Sys2Proof.Machine

open Sys2Proof (Instr)

/-- The effect of a command on everything but the queue. -/
def exec (i : Instr) (s : State) : Host.Outcome State Fault Refusal :=
  match i with
  | .bundleIssue c => Sys2Proof.Machine.execBundleIssue c s
  | .scAdd c gd ga gb => Sys2Proof.Machine.execScAdd c gd ga gb s
  | .scSub c gd ga gb => Sys2Proof.Machine.execScSub c gd ga gb s
  | .scAnd c gd ga gb => Sys2Proof.Machine.execScAnd c gd ga gb s
  | .scOr c gd ga gb => Sys2Proof.Machine.execScOr c gd ga gb s
  | .scXor c gd ga gb => Sys2Proof.Machine.execScXor c gd ga gb s
  | .scShl c gd ga gb => Sys2Proof.Machine.execScShl c gd ga gb s
  | .scShr c gd ga gb => Sys2Proof.Machine.execScShr c gd ga gb s
  | .scSra c gd ga gb => Sys2Proof.Machine.execScSra c gd ga gb s
  | .scMul c gd ga gb => Sys2Proof.Machine.execScMul c gd ga gb s
  | .scAddi c gd ga imm => Sys2Proof.Machine.execScAddi c gd ga imm s
  | .scMovhi c gd ga imm => Sys2Proof.Machine.execScMovhi c gd ga imm s
  | .scCmpeq c gd ga gb => Sys2Proof.Machine.execScCmpeq c gd ga gb s
  | .scCmplt c gd ga gb => Sys2Proof.Machine.execScCmplt c gd ga gb s
  | .scCmpltu c gd ga gb => Sys2Proof.Machine.execScCmpltu c gd ga gb s
  | .scLd c gd ga imm => Sys2Proof.Machine.execScLd c gd ga imm s
  | .scSt c ga gb imm => Sys2Proof.Machine.execScSt c ga gb imm s
  | .scBr c imm => Sys2Proof.Machine.execScBr c imm s
  | .scBrnz c ga imm => Sys2Proof.Machine.execScBrnz c ga imm s
  | .scBrz c ga imm => Sys2Proof.Machine.execScBrz c ga imm s
  | .scLoop c ga imm => Sys2Proof.Machine.execScLoop c ga imm s
  | .scBrsum c ga sk cond imm => Sys2Proof.Machine.execScBrsum c ga sk cond imm s
  | .scEnd c => Sys2Proof.Machine.execScEnd c s
  | .scRdsum c gd sk word => Sys2Proof.Machine.execScRdsum c gd sk word s
  | .scWait c ga gb => Sys2Proof.Machine.execScWait c ga gb s
  | .scSig c ga gb => Sys2Proof.Machine.execScSig c ga gb s
  | .scWaitt c ga => Sys2Proof.Machine.execScWaitt c ga s
  | .scFtime c gd => Sys2Proof.Machine.execScFtime c gd s
  | .srSeed c ga => Sys2Proof.Machine.execSrSeed c ga s
  | .scSquash c ga => Sys2Proof.Machine.execScSquash c ga s
  | .scExtb c ga => Sys2Proof.Machine.execScExtb c ga s
  | .coreWake c => Sys2Proof.Machine.execCoreWake c s
  | .waitLimit c => Sys2Proof.Machine.execWaitLimit c s
  | .launchStart c => Sys2Proof.Machine.execLaunchStart c s
  | .lsTouch c bad => Sys2Proof.Machine.execLsTouch c bad s
  | .mvGo c m ga => Sys2Proof.Machine.execMvGo c m ga s
  | .mvAccst c m ga gb row pairs form mode => Sys2Proof.Machine.execMvAccst c m ga gb row pairs form mode s
  | .mvAccstPairRead c => Sys2Proof.Machine.execMvAccstPairRead c s
  | .descriptorComplete c m seq => Sys2Proof.Machine.execDescriptorComplete c m seq s
  | .mmLd c cls sb ga gb gc ty scaling => Sys2Proof.Machine.execMmLd c cls sb ga gb gc ty scaling s
  | .stationaryReady c => Sys2Proof.Machine.execStationaryReady c s
  | .mmStream c cls sb base rows ga gb gc ty scaling ovr => Sys2Proof.Machine.execMmStream c cls sb base rows ga gb gc ty scaling ovr s
  | .mmZero c base rows int => Sys2Proof.Machine.execMmZero c base rows int s
  | .mmAccLd c base rows ga form => Sys2Proof.Machine.execMmAccLd c base rows ga form s
  | .accRowWrite c => Sys2Proof.Machine.execAccRowWrite c s
  | .veLd c vd pm gs => Sys2Proof.Machine.execVeLd c vd pm gs s
  | .veLdb c vd pm gs w => Sys2Proof.Machine.execVeLdb c vd pm gs w s
  | .veSt c va gs off len => Sys2Proof.Machine.execVeSt c va gs off len s
  | .veAccrd c vd pm mode row int sf => Sys2Proof.Machine.execVeAccrd c vd pm mode row int sf s
  | .veAddF32 c vd va b pm => Sys2Proof.Machine.execVeAddF32 c vd va b pm s
  | .veSubF32 c vd va b pm => Sys2Proof.Machine.execVeSubF32 c vd va b pm s
  | .veMulF32 c vd va b pm => Sys2Proof.Machine.execVeMulF32 c vd va b pm s
  | .veFmaF32 c vd va b vc pm => Sys2Proof.Machine.execVeFmaF32 c vd va b vc pm s
  | .veFmsF32 c vd va b vc pm => Sys2Proof.Machine.execVeFmsF32 c vd va b vc pm s
  | .veAddBf16 c vd va b pm => Sys2Proof.Machine.execVeAddBf16 c vd va b pm s
  | .veMulBf16 c vd va b pm => Sys2Proof.Machine.execVeMulBf16 c vd va b pm s
  | .veFmaBf16 c vd va b vc pm => Sys2Proof.Machine.execVeFmaBf16 c vd va b vc pm s
  | .veAddI32 c vd va b pm => Sys2Proof.Machine.execVeAddI32 c vd va b pm s
  | .veSubI32 c vd va b pm => Sys2Proof.Machine.execVeSubI32 c vd va b pm s
  | .veShlI32 c vd va b pm => Sys2Proof.Machine.execVeShlI32 c vd va b pm s
  | .veShrI32 c vd va b pm => Sys2Proof.Machine.execVeShrI32 c vd va b pm s
  | .veAnd c vd va b pm => Sys2Proof.Machine.execVeAnd c vd va b pm s
  | .veOr c vd va b pm => Sys2Proof.Machine.execVeOr c vd va b pm s
  | .veXor c vd va b pm => Sys2Proof.Machine.execVeXor c vd va b pm s
  | .veCmpF32 c cc pd va b pm => Sys2Proof.Machine.execVeCmpF32 c cc pd va b pm s
  | .veCmpI32 c cc pd va b pm => Sys2Proof.Machine.execVeCmpI32 c cc pd va b pm s
  | .veMinF32 c vd va b pm => Sys2Proof.Machine.execVeMinF32 c vd va b pm s
  | .veMaxF32 c vd va b pm => Sys2Proof.Machine.execVeMaxF32 c vd va b pm s
  | .veAbsF32 c vd va pm => Sys2Proof.Machine.execVeAbsF32 c vd va pm s
  | .veNegF32 c vd va pm => Sys2Proof.Machine.execVeNegF32 c vd va pm s
  | .veSel c ps vd va b pm => Sys2Proof.Machine.execVeSel c ps vd va b pm s
  | .veMov c vd va pm => Sys2Proof.Machine.execVeMov c vd va pm s
  | .vePand c pd pa pb => Sys2Proof.Machine.execVePand c pd pa pb s
  | .vePor c pd pa pb => Sys2Proof.Machine.execVePor c pd pa pb s
  | .vePxor c pd pa pb => Sys2Proof.Machine.execVePxor c pd pa pb s
  | .vePnot c pd pa => Sys2Proof.Machine.execVePnot c pd pa s
  | .veCvt c vd va given pm gs mode target source scaling half => Sys2Proof.Machine.execVeCvt c vd va given pm gs mode target source scaling half s
  | .veScode c vd va pm ty => Sys2Proof.Machine.execVeScode c vd va pm ty s
  | .veFnF32 c vd va pm tbl => Sys2Proof.Machine.execVeFnF32 c vd va pm tbl s
  | .veFndF32 c vd va pm tbl => Sys2Proof.Machine.execVeFndF32 c vd va pm tbl s
  | .veFnBf16 c vd va pm mode tbl => Sys2Proof.Machine.execVeFnBf16 c vd va pm mode tbl s
  | .veFndBf16 c vd va pm mode tbl => Sys2Proof.Machine.execVeFndBf16 c vd va pm mode tbl s
  | .veRsumF32 c vd va pm w => Sys2Proof.Machine.execVeRsumF32 c vd va pm w s
  | .veRmaxF32 c vd va pm w => Sys2Proof.Machine.execVeRmaxF32 c vd va pm w s
  | .veRamaxF32 c vd va pm w => Sys2Proof.Machine.execVeRamaxF32 c vd va pm w s
  | .veSumm c sd va pm pc mag merge => Sys2Proof.Machine.execVeSumm c sd va pm pc mag merge s
  | .veTld c t gs => Sys2Proof.Machine.execVeTld c t gs s
  | .veResultLand c => Sys2Proof.Machine.execVeResultLand c s
  | .summaryLand c => Sys2Proof.Machine.execSummaryLand c s
  | .tableSwitch c => Sys2Proof.Machine.execTableSwitch c s
  | .partitionHalt p => Sys2Proof.Machine.execPartitionHalt p s
  | .squashComplete p => Sys2Proof.Machine.execSquashComplete p s
  | .applyPass p bad => Sys2Proof.Machine.execApplyPass p bad s
  | .commitEvent p => Sys2Proof.Machine.execCommitEvent p s
  | .memRead a => Sys2Proof.Machine.execMemRead a s
  | .memWrite a => Sys2Proof.Machine.execMemWrite a s
  | .memAccumulate a => Sys2Proof.Machine.execMemAccumulate a s
  | .heldRequestExpiry target ix => Sys2Proof.Machine.execHeldRequestExpiry target ix s
  | .panFlush w p => Sys2Proof.Machine.execPanFlush w p s
  | .panFlushDrop w p => Sys2Proof.Machine.execPanFlushDrop w p s
  | .panFlushDone p => Sys2Proof.Machine.execPanFlushDone p s
  | .panSplitWrite w p sb v => Sys2Proof.Machine.execPanSplitWrite w p sb v s
  | .regionWrite w p ix w0 w1 w2 w3 => Sys2Proof.Machine.execRegionWrite w p ix w0 w1 w2 w3 s
  | .mcThreshWrite w mc v => Sys2Proof.Machine.execMcThreshWrite w mc v s
  | .deviceTempRead mc temp refresh device => Sys2Proof.Machine.execDeviceTempRead mc temp refresh device s
  | .scrubPass mc corrected bad done => Sys2Proof.Machine.execScrubPass mc corrected bad done s
  | .lpddr6ZeroDone k => Sys2Proof.Machine.execLpddr6ZeroDone k s
  | .counterRead r ix => Sys2Proof.Machine.execCounterRead r ix s
  | .counterSet r ix v => Sys2Proof.Machine.execCounterSet r ix v s
  | .counterAdd r ix v => Sys2Proof.Machine.execCounterAdd r ix v s
  | .watchArm r slot w0 w1 w2 w3 => Sys2Proof.Machine.execWatchArm r slot w0 w1 w2 w3 s
  | .watchCancel r slot w0 w1 w2 w3 => Sys2Proof.Machine.execWatchCancel r slot w0 w1 w2 w3 s
  | .syncGroupWrite w g v => Sys2Proof.Machine.execSyncGroupWrite w g v s
  | .barrierWrite w p b v => Sys2Proof.Machine.execBarrierWrite w p b v s
  | .watchSplitWrite w p v => Sys2Proof.Machine.execWatchSplitWrite w p v s
  | .ftCtrlWrite w v => Sys2Proof.Machine.execFtCtrlWrite w v s
  | .ftTick => Sys2Proof.Machine.execFtTick s
  | .timeExchangeTimer => Sys2Proof.Machine.execTimeExchangeTimer s
  | .syncAdd x => Sys2Proof.Machine.execSyncAdd x s
  | .watchReq x => Sys2Proof.Machine.execWatchReq x s
  | .timeReq x => Sys2Proof.Machine.execTimeReq x s
  | .timeResp x => Sys2Proof.Machine.execTimeResp x s
  | .packetRoute port x => Sys2Proof.Machine.execPacketRoute port x s
  | .packetAdmit a => Sys2Proof.Machine.execPacketAdmit a s
  | .class0Release k => Sys2Proof.Machine.execClass0Release k s
  | .write x ecc evictBad => Sys2Proof.Machine.execWrite x ecc evictBad s
  | .readReq x ecc evictBad => Sys2Proof.Machine.execReadReq x ecc evictBad s
  | .readResp x => Sys2Proof.Machine.execReadResp x s
  | .accumulate x ecc evictBad => Sys2Proof.Machine.execAccumulate x ecc evictBad s
  | .collData x => Sys2Proof.Machine.execCollData x s
  | .ack x => Sys2Proof.Machine.execAck x s
  | .nak x => Sys2Proof.Machine.execNak x s
  | .ackTimer key => Sys2Proof.Machine.execAckTimer key s
  | .heldAckTimer key => Sys2Proof.Machine.execHeldAckTimer key s
  | .retxTimeout key => Sys2Proof.Machine.execRetxTimeout key s
  | .txContextReclaim key => Sys2Proof.Machine.execTxContextReclaim key s
  | .rxContextReclaim key => Sys2Proof.Machine.execRxContextReclaim key s
  | .fabCtxReset w id all => Sys2Proof.Machine.execFabCtxReset w id all s
  | .routeWrite w d v => Sys2Proof.Machine.execRouteWrite w d v s
  | .mcastWrite w g v => Sys2Proof.Machine.execMcastWrite w g v s
  | .frameSlotReceive k x => Sys2Proof.Machine.execFrameSlotReceive k x s
  | .leave k rx => Sys2Proof.Machine.execLeave k rx s
  | .join k rx => Sys2Proof.Machine.execJoin k rx s
  | .swap k rx => Sys2Proof.Machine.execSwap k rx s
  | .migrate k => Sys2Proof.Machine.execMigrate k s
  | .migrationConfirm k slot => Sys2Proof.Machine.execMigrationConfirm k slot s
  | .migrationBreak k => Sys2Proof.Machine.execMigrationBreak k s
  | .migrationTimeout k => Sys2Proof.Machine.execMigrationTimeout k s
  | .release k x => Sys2Proof.Machine.execRelease k x s
  | .resweepTx k lane => Sys2Proof.Machine.execResweepTx k lane s
  | .lockLoopTick k lane rx heater tone => Sys2Proof.Machine.execLockLoopTick k lane rx heater tone s
  | .fadeWindow e rel => Sys2Proof.Machine.execFadeWindow e rel s
  | .berWindow k est => Sys2Proof.Machine.execBerWindow k est s
  | .resweepStart k lane rx => Sys2Proof.Machine.execResweepStart k lane rx s
  | .resweepEnd k lane rx found => Sys2Proof.Machine.execResweepEnd k lane rx found s
  | .gapRound k => Sys2Proof.Machine.execGapRound k s
  | .calLoopbackTimer k => Sys2Proof.Machine.execCalLoopbackTimer k s
  | .calReq x => Sys2Proof.Machine.execCalReq x s
  | .calAck x => Sys2Proof.Machine.execCalAck x s
  | .calLoopbackEnd k => Sys2Proof.Machine.execCalLoopbackEnd k s
  | .discoveryDone k peer link => Sys2Proof.Machine.execDiscoveryDone k peer link s
  | .lnkAssignWrite w k v => Sys2Proof.Machine.execLnkAssignWrite w k v s
  | .linkSignalLoss k => Sys2Proof.Machine.execLinkSignalLoss k s
  | .opticsCalibration e x lit found => Sys2Proof.Machine.execOpticsCalibration e x lit found s
  | .rxSweepRetry k found => Sys2Proof.Machine.execRxSweepRetry k found s
  | .collStart p => Sys2Proof.Machine.execCollStart p s
  | .collDeadline p entry inst => Sys2Proof.Machine.execCollDeadline p entry inst s
  | .collComplete p entry inst => Sys2Proof.Machine.execCollComplete p entry inst s
  | .planLoad f m => Sys2Proof.Machine.execPlanLoad f m s
  | .nop p k => Sys2Proof.Machine.execNop p k s
  | .launch p k => Sys2Proof.Machine.execLaunch p k s
  | .coll p k => Sys2Proof.Machine.execColl p k s
  | .wait p k => Sys2Proof.Machine.execWait p k s
  | .signal p k => Sys2Proof.Machine.execSignal p k s
  | .commit p k => Sys2Proof.Machine.execCommit p k s
  | .phaseBegin p k => Sys2Proof.Machine.execPhaseBegin p k s
  | .phaseEnd p k => Sys2Proof.Machine.execPhaseEnd p k s
  | .heavy p k => Sys2Proof.Machine.execHeavy p k s
  | .gap p k => Sys2Proof.Machine.execGap p k s
  | .memUse p k => Sys2Proof.Machine.execMemUse p k s
  | .streamRegionSet p k => Sys2Proof.Machine.execStreamRegionSet p k s
  | .streamWatchSet p k => Sys2Proof.Machine.execStreamWatchSet p k s
  | .drainCaptureDone p => Sys2Proof.Machine.execDrainCaptureDone p s
  | .drainWritten p => Sys2Proof.Machine.execDrainWritten p s
  | .agreeResult p v => Sys2Proof.Machine.execAgreeResult p v s
  | .fillLoad p => Sys2Proof.Machine.execFillLoad p s
  | .mailboxArm f m seq => Sys2Proof.Machine.execMailboxArm f m seq s
  | .mailboxDiscard f m off => Sys2Proof.Machine.execMailboxDiscard f m off s
  | .hello f m => Sys2Proof.Machine.execHello f m s
  | .notifyWait f m => Sys2Proof.Machine.execNotifyWait f m s
  | .notifyTimeout f m => Sys2Proof.Machine.execNotifyTimeout f m s
  | .bar2Map f m => Sys2Proof.Machine.execBar2Map f m s
  | .fwLoad f m image => Sys2Proof.Machine.execFwLoad f m image s
  | .fwVerify => Sys2Proof.Machine.execFwVerify s
  | .logRead f m => Sys2Proof.Machine.execLogRead f m s
  | .bankClear f m => Sys2Proof.Machine.execBankClear f m s
  | .resetCompute f m => Sys2Proof.Machine.execResetCompute f m s
  | .resetFull f m => Sys2Proof.Machine.execResetFull f m s
  | .resetBlock f m => Sys2Proof.Machine.execResetBlock f m s
  | .blockResetDone => Sys2Proof.Machine.execBlockResetDone s
  | .setCap f m => Sys2Proof.Machine.execSetCap f m s
  | .partitionConfig f m => Sys2Proof.Machine.execPartitionConfig f m s
  | .partitionBind f m => Sys2Proof.Machine.execPartitionBind f m s
  | .partitionReset f m => Sys2Proof.Machine.execPartitionReset f m s
  | .jobLoad f m => Sys2Proof.Machine.execJobLoad f m s
  | .regionSet f m => Sys2Proof.Machine.execRegionSet f m s
  | .watchSet f m => Sys2Proof.Machine.execWatchSet f m s
  | .routeSet f m => Sys2Proof.Machine.execRouteSet f m s
  | .mcastSet f m => Sys2Proof.Machine.execMcastSet f m s
  | .fenceSet f m => Sys2Proof.Machine.execFenceSet f m s
  | .fenceClear f m => Sys2Proof.Machine.execFenceClear f m s
  | .ctxReset f m => Sys2Proof.Machine.execCtxReset f m s
  | .laneAssign f m => Sys2Proof.Machine.execLaneAssign f m s
  | .submit f m => Sys2Proof.Machine.execSubmit f m s
  | .dmaCopyToDevice f m data fail => Sys2Proof.Machine.execDmaCopyToDevice f m data fail s
  | .dmaCopyToHost f m fail => Sys2Proof.Machine.execDmaCopyToHost f m fail s
  | .snapConfig f m => Sys2Proof.Machine.execSnapConfig f m s
  | .snapSet f m => Sys2Proof.Machine.execSnapSet f m s
  | .restore f m => Sys2Proof.Machine.execRestore f m s
  | .fill f m => Sys2Proof.Machine.execFill f m s
  | .fillServe f m => Sys2Proof.Machine.execFillServe f m s
  | .fillCancel f m => Sys2Proof.Machine.execFillCancel f m s
  | .resume f m => Sys2Proof.Machine.execResume f m s
  | .bar2Read f off len => Sys2Proof.Machine.execBar2Read f off len s
  | .bar2Write f off data => Sys2Proof.Machine.execBar2Write f off data s
  | .functionLevelReset f => Sys2Proof.Machine.execFunctionLevelReset f s
  | .hotReset => Sys2Proof.Machine.execHotReset s
  | .pwrDomainReqWrite w v => Sys2Proof.Machine.execPwrDomainReqWrite w v s
  | .domainPowered d => Sys2Proof.Machine.execDomainPowered d s
  | .powerSample watts volts => Sys2Proof.Machine.execPowerSample watts volts s
  | .ladderTick input parts streams => Sys2Proof.Machine.execLadderTick input parts streams s
  | .dutyWindowStart => Sys2Proof.Machine.execDutyWindowStart s
  | .dutyHold => Sys2Proof.Machine.execDutyHold s
  | .hintPreposition => Sys2Proof.Machine.execHintPreposition s
  | .thermalSample temps => Sys2Proof.Machine.execThermalSample temps s
  | .thermCtrlWrite w v => Sys2Proof.Machine.execThermCtrlWrite w v s
  | .coolantLoss => Sys2Proof.Machine.execCoolantLoss s
  | .thermtrip => Sys2Proof.Machine.execThermtrip s
  | .quenchRecovery => Sys2Proof.Machine.execQuenchRecovery s
  | .powerOn => Sys2Proof.Machine.execPowerOn s
  | .inputUndervoltage => Sys2Proof.Machine.execInputUndervoltage s
  | .inputOvervoltage => Sys2Proof.Machine.execInputOvervoltage s
  | .perstN => Sys2Proof.Machine.execPerstN s
  | .resetRelease => Sys2Proof.Machine.execResetRelease s
  | .dispatchWatchdog => Sys2Proof.Machine.execDispatchWatchdog s
  | .dispatchRestart digest => Sys2Proof.Machine.execDispatchRestart digest s
  | .hearthWatchdog => Sys2Proof.Machine.execHearthWatchdog s
  | .hearthEcc => Sys2Proof.Machine.execHearthEcc s
  | .stageAdvance => Sys2Proof.Machine.execStageAdvance s
  | .startTimeout => Sys2Proof.Machine.execStartTimeout s
  | .failCountClear => Sys2Proof.Machine.execFailCountClear s
  | .svnAdvance => Sys2Proof.Machine.execSvnAdvance s
  | .oobReset arg => Sys2Proof.Machine.execOobReset arg s
  | .oobBankClear => Sys2Proof.Machine.execOobBankClear s
  | .oobSetCap arg => Sys2Proof.Machine.execOobSetCap arg s
  | .oobStandby => Sys2Proof.Machine.execOobStandby s
  | .oobWake => Sys2Proof.Machine.execOobWake s
  | .oobLogRead first count => Sys2Proof.Machine.execOobLogRead first count s
  | .oobAlert arg => Sys2Proof.Machine.execOobAlert arg s
  | .oobDebugChallenge => Sys2Proof.Machine.execOobDebugChallenge s
  | .pldmSensorRead id => Sys2Proof.Machine.execPldmSensorRead id s
  | .pldmFwUpdate image => Sys2Proof.Machine.execPldmFwUpdate image s
  | .spdmRequest x => Sys2Proof.Machine.execSpdmRequest x s
  | .keySet slot key => Sys2Proof.Machine.execKeySet slot key s
  | .debugToken token => Sys2Proof.Machine.execDebugToken token s
  | .remoteReset x => Sys2Proof.Machine.execRemoteReset x s
  | .voltageSample rails => Sys2Proof.Machine.execVoltageSample rails s
  | .logProgram => Sys2Proof.Machine.execLogProgram s
  | .bootRetainMirror => Sys2Proof.Machine.execBootRetainMirror s
  | .telemetryRefresh => Sys2Proof.Machine.execTelemetryRefresh s
  | .alertCauseWrite w v => Sys2Proof.Machine.execAlertCauseWrite w v s
  | .registerWrite t => Sys2Proof.Machine.execRegisterWrite t s
  | .frameSlotSend k => Sys2Proof.Machine.execFrameSlotSend k s
  | .pageCapture p => Sys2Proof.Machine.execPageCapture p s
  | .migrationRetry k => Sys2Proof.Machine.execMigrationRetry k s
  | .loopbackRetry k => Sys2Proof.Machine.execLoopbackRetry k s
  | .discoveryRetry k => Sys2Proof.Machine.execDiscoveryRetry k s
  | .configurationWrite x => Sys2Proof.Machine.execConfigurationWrite x s

end Sys2Proof.Machine
end

