-- ==== Sys2Proof/Safety.lean ====
section
/-! DEFINITION. What counts as a safe run, and the terms in which the statements speak of commands: what a core does next, what
a command changes. -/

namespace Sys2Proof

open Sys2Proof.Machine

/-- A step that goes on: neither a fault nor a refusal. -/
def Safe (s : State) : Prop := ∃ t, step s = .next t

/-- The state in which the next bundle of core `c` issues: everything due before it has happened (R91, R395). -/
def Machine.State.ahead (s : State) (c : Nat) : State := s.settleCore c []

/-- The core as its next bundle issues. -/
def Machine.State.coreAhead (s : State) (c : Nat) : Core := (s.ahead c).core c

/-- Core `c` issues its next bundle, of launch `l`, now: nothing holds it, before or after what is due first, the touches of its cycle
meet no condition, and the bundle lies within its block (R92, R395, R397). -/
structure Ready (s : State) (c : Nat) (l : Launch) : Prop where
  number : c < 32
  before : (s.core c).mayIssue = true
  after : (s.coreAhead c).mayIssue = true
  late : (s.coreAhead c).late = []
  block : (s.coreAhead c).block = some l
  inside : (s.coreAhead c).pc < l.bundles

/-- No pair read of an mv.accst is due any more. -/
def Machine.Core.pairsPast (k : Core) : Prop := ∀ f ∈ k.flights, f.ev.pairRead = true → k.cycle < f.due

/-- No request waits beyond the 64 places of a target (R136). -/
def Machine.State.noneParked (s : State) : Prop := ∀ e ∈ s.mem.held, ∀ h ∈ e.2, h.parked = false

/-- Where the bundle stands that core `c` issues next. -/
def Machine.State.site (s : State) (c : Nat) (l : Launch) : Site :=
  { e := (s.ahead c).env c, tag := l.tag, bundle := l.bundleAddr (s.coreAhead c).pc, count := l.bundles,
    pc := (s.coreAhead c).pc, stream := l.stream }

/-- The command is served and leaves core `c` as `k`; from what was due before it, nothing else of the module changes. -/
def OnCore (i : Instr) (s : State) (c : Nat) (k : Core) : Prop :=
  ∃ t, exec i s = .next t ∧ t.answer = .ok [] ∧ t.core c = k ∧ (∀ d, d ≠ c → t.core d = (s.ahead c).core d) ∧
    { t with cores := (s.ahead c).cores, answer := (s.ahead c).answer } = s.ahead c

/-- A core whose bundle of one instruction has issued: `k` is what the instruction made of `before` (R93, R98). -/
def afterSlot (before k : Core) : Core :=
  { afterBundle before.branch { k with issued := k.issued + 1 } with cycle := before.cycle + 1 }

/-- General registers that may be read (R118). -/
def Machine.Core.clean (k : Core) (rs : List G) : Bool := rs.all fun r => gOk k r.toNat

/-- A result may land in general register `r` after `n` cycles: none of the writes under way lands as late (R95). -/
def Machine.Core.gFree (k : Core) (r : G) (n : Nat) : Prop := r.toNat = 0 ∨ k.gDue.get 0 r.toNat < k.cycle + n

/-- The same for a vector, a predicate and a summary register (R73). Writes to p0 have no effect (R70). -/
def Machine.Core.vFree (k : Core) (r : VReg) (n : Nat) : Prop := k.vDue.get 0 r.toNat < k.cycle + n
def Machine.Core.pFree (k : Core) (r : PReg) (n : Nat) : Prop := r.toNat = 0 ∨ k.pDue.get 0 r.toNat < k.cycle + n
def Machine.Core.sFree (k : Core) (r : BitVec 2) (n : Nat) : Prop := k.sDue.get 0 r.toNat < k.cycle + n

/-- `n` vectors of `len` bytes, `stride` apart, lie 64-byte aligned in the populated local store (R46, R103). -/
def Vectors (addr stride n len : Nat) : Prop :=
  addr % 64 = 0 ∧ stride % 64 = 0 ∧ addr + (n - 1) * stride + len ≤ 0x300000

/-- A scale array of `n` bytes lies 8-byte aligned in the populated local store; a per-tensor scale has none (R46). -/
def ScaleArray (k : Num.Scaling) (addr n : Nat) : Prop := k.len = 0 ∨ (addr % 8 = 0 ∧ addr + n ≤ 0x300000)

/-- Core `c` runs, with one event in flight, due by cycle `t`. -/
structure OneFlight (s : State) (c : Nat) (f : Flight) : Prop where
  number : c < 32
  run : (s.core c).run ≠ .halted
  only : (s.core c).flights = [f]

/-- The command is served; of the module it changes core `c`, to `k`, and memory, to `m`, alone. -/
def OnCoreMem (i : Instr) (s : State) (c : Nat) (k : Core) (m : Mem) : Prop :=
  ∃ t, exec i s = .next t ∧ t.answer = .ok [] ∧ t.core c = k ∧ (∀ d, d ≠ c → t.core d = s.core d) ∧
    t.mem = m ∧ { t with cores := s.cores, mem := s.mem, answer := s.answer } = s

/-- Memory `m'` holds `bs` at address `a`, and what `m` held everywhere else. -/
def Stored (m m' : Mem) (a : Nat) (bs : List Byte) : Prop :=
  (∀ i b, bs[i]? = some b → m'.bytes.get 0 (a + i) = b) ∧
    ∀ j, (j < a ∨ a + bs.length ≤ j) → m'.bytes.get 0 j = m.bytes.get 0 j

/-- A request of a unit of this module, the physical function among them, or of a remote module, to a tier beside the local stores: entry `h`
holds it and grants it, its epoch is not held or stale, its guard admits it, its tier serves, and no apply pass holds its lines
(R130 to R137, R148, R155). -/
structure Admitted (s : State) (r : Req) (h : Hit) : Prop where
  unit : r.remote = true ∨ r.unit ≤ 0x70
  tiers : zoneOf r.addr r.len ∈ [Zone.pan, .hbm, .lpddr]
  served : s.tierOn r.addr r.len = true
  entry : s.hit (s.judges r) r.addr r.len = some h
  access : h.reg.grants r = true
  epoch : provOf r.prov r.epochLo (s.part h.part).epoch ∈ [Prov.committed, .provisional]
  guard : h.reg.admits r.kind (provOf r.prov r.epochLo (s.part h.part).epoch == .provisional) (h.reg.phys r.addr).2 = true
  on : s.tierOn (h.reg.phys r.addr).1 r.len = true
  pass : (s.part h.part).passHolds (h.reg.phys r.addr).1 r.len = false

/-- The address that the entry makes of a request's (R133). -/
def Machine.Hit.target (h : Hit) (r : Req) : Nat := (h.reg.phys r.addr).1

/-- The dispatch processor of this module as a requester. -/
def dispatch : Who := { unit := unitDispatch }

/-- No armed watch waits for counter `i`. -/
def Machine.Sync.unwatched (x : Sync) (i : Nat) : Prop := ∀ e ∈ x.watches, ∀ w, e.2 = some w → w.cond = 1 ∨ w.counter ≠ i

/-- The command is served; of the module it changes the sync unit alone, to `y`. -/
def OnSync (i : Instr) (s : State) (y : Sync) : Prop := exec i s = .next { s with sync := y, answer := .ok [] }

/-- Packet `x` of another module reaches this one in form, and its receive half `h`, whose NEXT is `n`, performs it: it lies in the
window, is not performed yet and not held (R187, R200 to R203). -/
structure Arrives (s : State) (x : Pkt) (h : RxHalf) (n : Nat) : Prop where
  here : s.mine x = true
  far : x.src ≠ s.fab.id
  form : x.formOk = true
  unfenced : (s.fab.routes.get {} s.fab.id).fence = false
  half : s.fab.rxOf x.rxKey = some h ∨ (s.fab.rxOf x.rxKey = none ∧ s.fab.contexts < 4096 ∧ h = { key := x.rxKey, last := s.now })
  next : h.base = some n ∨ (h.base = none ∧ x.syn = true ∧ n = x.seq)
  inside : (x.seq + 2 ^ 16 - n) % 2 ^ 16 < 64
  fresh : h.map.getLsbD ((x.seq + 2 ^ 16 - n) % 2 ^ 16) = false
  unheld : (h.held.all fun e => e.1 != x.seq) = true

/-- No context has a request that waits for room. -/
def Machine.Fab.noneWaits (f : Fab) : Prop := ∀ h ∈ f.tx, h.waiting = []

/-- A unicast packet to module `d` of at most 8,192 bytes goes out at once: its transmit half `h` has room, the destination is not
fenced, and a link leads there (R198, R201, R206). -/
structure CanSend (s : State) (d : Nat) (h : TxHalf) : Prop where
  half : s.fab.txOf (.uni d) = some h
  idle : h.waiting = []
  few : h.out.length < 64
  bytes : h.out.foldl (fun n o => n + o.pkt.len) 0 + 8192 ≤ 512 * 1024
  retry : s.fab.retry + 16 + 8192 ≤ 2 ^ 21
  unfenced : (s.fab.routes.get {} d).fence = false
  way : ∀ x : Pkt, x.dst = d → x.mcast = false → x.hops = 0 → x.vc = 0 → ∃ k, s.way x = .link k

/-- Packet `o` is outstanding to module `d`, with the SEQ that came next in `h`, and SYN where nothing was outstanding (R201, R203). -/
def SentTo (t : State) (d : Nat) (h : TxHalf) (o : OutPkt) : Prop :=
  o.pkt.seq = h.next ∧ o.pkt.dst = d ∧ o.pkt.syn = h.out.isEmpty ∧
    ∃ h', t.fab.txOf (.uni d) = some h' ∧ h'.out = h.out ++ [o] ∧ h'.next = (h.next + 1) % 2 ^ 16

/-- The command is served; of the module it changes the fabric block alone, to `y`. -/
def OnFab (i : Instr) (s : State) (y : Fab) : Prop := exec i s = .next { s with fab := y, answer := .ok [] }

/-- The command is served; of the module it changes link `k` alone, to `l`. -/
def OnLink (i : Instr) (s : State) (k : Nat) (l : OLink) : Prop :=
  ∃ t, exec i s = .next t ∧ t.answer = .ok [] ∧ t.link k = l ∧ (∀ j, j ≠ k → t.link j = s.link j) ∧
    { t with opt := { t.opt with links := s.opt.links }, answer := s.answer } = s

/-- The command is served; cores, memory, partitions and the links other than `k` stay as they were; `p` holds of what it leaves. -/
def LinkWork (i : Instr) (s : State) (k : Nat) (p : State → Prop) : Prop :=
  ∃ t, exec i s = .next t ∧ t.answer = .ok [] ∧ (∀ j, j ≠ k → t.link j = s.link j) ∧ t.cores = s.cores ∧ t.mem = s.mem ∧
    t.parts = s.parts ∧ p t

/-- Data lanes, roles and spare of a direction of a link. -/
def Machine.OLink.map (l : OLink) (rx : Bool) : List Nat := if rx then l.rxMap else l.txMap
def Machine.OLink.role (l : OLink) (rx : Bool) (n : Nat) : Nat := (if rx then l.rxRole else l.txRole).get 1 n
def Machine.OLink.spare (l : OLink) (rx : Bool) : Nat := if rx then l.rxSpare else l.txSpare

/-- The first optics event since ERR was cleared is captured: `t` holds code `c` where `s` had none. -/
def Captured (s t : State) (c : Code) : Prop := s.opt.err = false → t.opt.err = true ∧ t.opt.errCode = c

/-- Stream `k` of partition `p`, which runs, stands at command `x`, in form and allowed by its tag; `t` is the state with it fetched
and a provisional tag marked (R16, R118, R310, R311). -/
structure AtCommand (s : State) (p k : Nat) (x : Cmd) (t : State) : Prop where
  numbers : p < 8 ∧ k < 64
  valid : (s.part p).valid = true
  runs : (s.part p).halted = false ∧ (s.part p).haltReq = none
  fetched : ∃ u, State.nextCmd p k 70000 s = (.cmd x, u) ∧
    t = if (u.part p).epoch.toNat < x.tag.toNat then u.modStream p k fun y => y.mark x.tag else u
  form : x.ok (2 ^ (t.part p).log2) (t.part p).epoch = true
  tag : x.tag.toNat ≤ (t.part p).epoch.toNat + 1
  unsquashed : (t.part p).squash ≠ some x.tag

/-- The command runs provisionally (R16). -/
def Provisional (t : State) (p : Nat) (x : Cmd) : Bool := decide ((t.part p).epoch.toNat < x.tag.toNat)

/-- The stream command is served and stream `k` of partition `p` stands at its next; `q` holds of what it leaves. -/
def StreamWork (i : Instr) (s t : State) (p k : Nat) (q : State → Prop) : Prop :=
  ∃ u, exec i s = .next u ∧ u.answer = .ok [] ∧ u.stream p k = (t.advance p k).stream p k ∧ q u

/-- The stream command is refused with `c`, and its partition is asked to halt for it. -/
def StreamRefused (i : Instr) (s : State) (p k : Nat) (c : Code) : Prop :=
  ∃ u, exec i s = .next u ∧ u.answer = .refused c ∧ (u.part p).haltReq = some (c, some k)

/-- An admitted read of `n` bytes at `a` by the dispatch processor for partition `p` of a region without a cache, and its bytes. -/
structure Fetches (t : State) (p : Nat) (kind : Kind) (a n : Nat) (bs : List Byte) : Prop where
  ok : ∃ h, Admitted t (dispatchReq p kind a n) h ∧ h.reg.cache = false ∧ t.mem.poisoned (h.target (dispatchReq p kind a n)) n = false ∧
    bs = t.mem.bytes.getList 0 (h.target (dispatchReq p kind a n)) n

/-- Mailbox `m` of function `f` holds `x`: a running command `op`, not begun, in its turn (R300, R301). -/
structure InMailbox (s : State) (f m op : Nat) (x : Mbox) : Prop where
  numbers : f < 9 ∧ m < 64
  holds : s.mbox f m = x
  runs : x.state = 1
  op : x.op = op
  fresh : x.begun = false
  turn : s.inTurn x = true
  up : s.rst.restarting = false

/-- The command of mailbox `x` has ended with status `c`: DONE, with the SEQ of its arming, DETAIL and result bytes (R302). -/
def Ended (t : State) (f m : Nat) (x : Mbox) (c : Code) (detail : Nat) (res : List Byte) : Prop :=
  (t.mbox f m).state = 2 ∧ (t.mbox f m).status = c ∧ (t.mbox f m).doneSeq = x.seq ∧ (t.mbox f m).detail = BitVec.ofNat 64 detail ∧
    (t.mbox f m).rlen = res.length ∧ (t.mbox f m).bytes.getList 0 0x80 res.length = res

/-- The mailbox command ends with success and result `res`; `p` holds of what it leaves. -/
def MailboxOk (i : Instr) (s : State) (f m : Nat) (x : Mbox) (res : List Byte) (p : State → Prop) : Prop :=
  ∃ t, exec i s = .next t ∧ t.answer = .ok res ∧ Ended t f m x 0 0 res ∧ p t

/-- The mailbox command is refused with `c`; `p` holds of what it leaves. -/
def MailboxRefused (i : Instr) (s : State) (f m : Nat) (x : Mbox) (c : Code) (detail : Nat) (p : State → Prop) : Prop :=
  ∃ t, exec i s = .next t ∧ t.answer = .refused c ∧ Ended t f m x c detail [] ∧ p t

/-- The mailbox command has begun and waits. -/
def Begun (t : State) (f m : Nat) : Prop := (t.mbox f m).state = 1 ∧ (t.mbox f m).begun = true

/-- But for mailbox `m` of function `f`, its vector and the answer, `t` is `u`. -/
def OnlyMailbox (t u : State) (f m : Nat) : Prop :=
  { t with host := { t.host with mboxes := u.host.mboxes }, out := u.out, answer := u.answer } = u ∧
    ∀ n, n ≠ 64 * f + m → t.host.mboxes.get {} n = u.host.mboxes.get {} n

/-- The mailbox command ends with success and result `res`, and makes `u` of the module. -/
def MailboxMakes (i : Instr) (s : State) (f m : Nat) (x : Mbox) (res : List Byte) (u : State) : Prop :=
  MailboxOk i s f m x res fun t => OnlyMailbox t u f m

/-- Mailbox `m` of function `f` holds `x`: command `op`, which has begun and waits. -/
structure Waiting (s : State) (f m op : Nat) (x : Mbox) : Prop where
  numbers : f < 9 ∧ m < 64
  holds : s.mbox f m = x
  runs : x.state = 1
  op : x.op = op
  begun : x.begun = true
  up : s.rst.restarting = false

/-- Beside the host interface, the log and its attention, the module stands as it was. -/
def Kept (s t : State) : Prop := { t with host := s.host, mgmt := s.mgmt, out := s.out, answer := s.answer } = s

/-- The command is served and makes `u` of the module. -/
def Makes (i : Instr) (s u : State) : Prop := exec i s = .next { u with answer := .ok [] }

end Sys2Proof
end

