-- ==== Sys2Proof/Certificates/Slice0/Obligations.lean ====
section
/-! DEFINITION. The statements for the provers. -/

open Sys2Proof Sys2Proof.Machine

/-- A step carries out the command at the front of the queue on the state that holds the rest; on an empty queue the block idles. -/
def Obligations.StepRunsFront : Prop :=
  (∀ (c : Instr) (rest : List Instr) (s : State), step { s with pending := c :: rest } = exec c { s with pending := rest }) ∧
    ∀ s : State, s.pending = [] → step s = .next s

/-- R96, Table 05-4: the three-register scalar instructions deliver these values, `sc.mul` after three cycles, the others
after one; nothing else of the module changes but the trace of a provisional write. -/
def Obligations.ScalarThreeRegisterResults : Prop :=
  ∀ (s : State) (c : Nat) (l : Launch) (gd ga gb : G), Ready s c l → (s.coreAhead c).clean [ga, gb] = true →
    let k := s.coreAhead c
    let a := gRead k ga.toNat
    let b := gRead k gb.toNat
    (k.gFree gd 1 → ∀ e ∈ [(Instr.scAdd c gd ga gb, a + b), (.scSub c gd ga gb, a - b), (.scAnd c gd ga gb, a &&& b),
        (.scOr c gd ga gb, a ||| b), (.scXor c gd ga gb, a ^^^ b), (.scShl c gd ga gb, a <<< (b.toNat % 64)),
        (.scShr c gd ga gb, a >>> (b.toNat % 64)), (.scSra c gd ga gb, a.sshiftRight (b.toNat % 64)),
        (.scCmpeq c gd ga gb, if a = b then 1 else 0), (.scCmplt c gd ga gb, if a.toInt < b.toInt then 1 else 0),
        (.scCmpltu c gd ga gb, if a.toNat < b.toNat then 1 else 0)],
      OnCore e.1 s c (afterSlot k (flyG (s.site c l) gd.toNat 1 e.2 k))) ∧
    (k.gFree gd 3 → OnCore (.scMul c gd ga gb) s c (afterSlot k (flyG (s.site c l) gd.toNat 3 (a * b) k)))

/-- R96, Table 05-4: the scalar instructions with an immediate or without a general source. -/
def Obligations.ScalarOtherResults : Prop :=
  ∀ (s : State) (c : Nat) (l : Launch) (gd ga : G) (imm : BitVec 38) (imm' : BitVec 26) (sk : BitVec 2) (w : BitVec 1),
    Ready s c l →
    let k := s.coreAhead c
    let a := gRead k ga.toNat
    let x := s.site c l
    (k.clean [ga] = true → k.gFree gd 1 →
      OnCore (.scAddi c gd ga imm) s c (afterSlot k (flyG x gd.toNat 1 (a + imm.signExtend 64) k)) ∧
      OnCore (.scMovhi c gd ga imm') s c (afterSlot k (flyG x gd.toNat 1 (imm' ++ a.setWidth 38) k))) ∧
    (k.gFree gd 2 → OnCore (.scFtime c gd) s c (afterSlot k (flyG x gd.toNat 2 s.sync.ft k))) ∧
    (k.gFree gd 2 → (k.sum.get {} sk.toNat).poison = false →
      OnCore (.scRdsum c gd sk w) s c
        (afterSlot k (flyG x gd.toNat 2 (BitVec.ofNat 64 ((k.sum.get {} sk.toNat).word w.toNat)) k))) ∧
    (k.clean [ga] = true →
      OnCore (.srSeed c ga) s c (afterSlot k (fly x 0 2 (.landSeed a) k)) ∧
      OnCore (.scExtb c ga) s c (afterSlot k (fly x 0 2 (.landExt a) k)))

/-- R97, Table 05-4: `sc.ld` touches its line in the next cycle, its result due after eight; `sc.st` touches in the cycle before
t0 + 6; an offset that is not 8-byte aligned or lies outside the populated local store does not execute: the core halts with
LS_RANGE. -/
def Obligations.ScalarLoadStore : Prop :=
  ∀ (s : State) (c : Nat) (l : Launch) (gd ga gb : G) (imm : BitVec 38), Ready s c l →
    let k := s.coreAhead c
    let x := s.site c l
    let off := (gRead k ga.toNat + imm.signExtend 64).toNat
    (off % 8 = 0 ∧ off ≤ 0x2FFFF8 →
      (k.clean [ga] = true → k.gFree gd 8 →
        OnCore (.scLd c gd ga imm) s c (afterSlot k (fly x 0 1 (.scLd gd.toNat off)
          (noteG x gd.toNat { k with gDue := if gd.toNat = 0 then k.gDue else k.gDue.set 0 gd.toNat (k.cycle + 8) })))) ∧
      (k.clean [ga, gb] = true →
        OnCore (.scSt c ga gb imm) s c (afterSlot k (fly x 0 5 (.scSt off (gRead k gb.toNat)) k)))) ∧
    (¬ (off % 8 = 0 ∧ off ≤ 0x2FFFF8) → k.clean [ga, gb] = true → k.gFree gd 8 → k.err = false → k.pairsPast →
      ∀ i ∈ [Instr.scLd c gd ga imm, .scSt c ga gb imm], ∃ t, exec i s = .next t ∧ (t.core c).run = .halted ∧
        (t.core c).err = true ∧ (t.core c).errCode = Err.lsRange ∧ t.mem = (s.ahead c).mem ∧
        (t.core c).g = k.g ∧ (t.core c).flights = k.flights)

/-- R98, R99, R100: a branch is taken where its condition holds, after three delay bundles; a target outside the block, or a
branch in a delay bundle, halts the core and is not executed. R98: the delay bundles: with a branch pending, a bundle advances the program counter until the third has issued; then the
target is next, or, after sc.end, the core leaves its block. -/
def Obligations.BranchesWaitThreeBundles : Prop :=
  (∀ (s : State) (c : Nat) (l : Launch) (ga : G) (sk : BitVec 2) (cond : Fin 9) (imm : BitVec 38), Ready s c l →
    let k := s.coreAhead c
    let x := s.site c l
    let a := gRead k ga.toNat
    let tgt : Int := k.pc + imm.toInt
    let sm := k.sum.get {} sk.toNat
    let goes (taken : Bool) : Core :=
      { k with branch := some { left := 3, target := some (if taken then tgt.toNat else k.pc + 4) } }
    (k.branch = none →
      OnCore (.scEnd c) s c (afterSlot k { k with branch := some { left := 3, target := none } })) ∧
    (k.branch = none → 0 ≤ tgt ∧ tgt < l.bundles →
      OnCore (.scBr c imm) s c (afterSlot k (goes true)) ∧
      (k.clean [ga] = true →
        OnCore (.scBrnz c ga imm) s c (afterSlot k (goes (a != 0))) ∧
        OnCore (.scBrz c ga imm) s c (afterSlot k (goes (a == 0))) ∧
        (k.gFree ga 1 → OnCore (.scLoop c ga imm) s c (afterSlot k (flyG x ga.toNat 1 (a - 1) (goes (a - 1 != 0))))) ∧
        (sm.poison = false →
          OnCore (.scBrsum c ga sk cond imm) s c (afterSlot k (goes (sm.branch cond.val a.toNat)))))) ∧
    (k.err = false → k.pairsPast → (k.branch ≠ none ∨ ¬ (0 ≤ tgt ∧ tgt < l.bundles)) →
      ∃ t, exec (.scBr c imm) s = .next t ∧ (t.core c).run = .halted ∧
        (t.core c).errCode = (if k.branch = none then Err.branchRange else Err.delaySlot))) ∧
  (∀ (s : State) (c : Nat) (l : Launch) (b : BrPend), Ready s c l → (s.coreAhead c).branch = some b →
    let k := s.coreAhead c
    ∀ gd ga gb : G, k.clean [ga, gb] = true → k.gFree gd 1 →
      ∃ t, exec (.scAdd c gd ga gb) s = .next t ∧
        (1 < b.left → (t.core c).pc = k.pc + 1 ∧ (t.core c).branch = some { b with left := b.left - 1 } ∧
          (t.core c).block = some l) ∧
        (b.left ≤ 1 → ∀ n, b.target = some n →
          (t.core c).pc = n ∧ (t.core c).branch = none ∧ (t.core c).block = some l) ∧
        (b.left ≤ 1 → b.target = none → (t.core c).block = none ∧ (t.core c).branch = none ∧
          (t.core c).run = (if k.launches = [] then .idle else .held)))

/-- R96: a result available at cycle t is seen by the bundle that issues at t: the value of a one-cycle instruction is in its
register as the next bundle issues, and every other general register keeps its value; g0 keeps reading zero (R95). -/
def Obligations.ScalarResultSeenByNextBundle : Prop :=
  ∀ (s : State) (c : Nat) (l : Launch) (gd ga gb : G), Ready s c l → (s.core c).flights = [] →
    (s.coreAhead c).clean [ga, gb] = true → (s.coreAhead c).gFree gd 1 →
    let k := s.core c
    ∃ t, exec (.scAdd c gd ga gb) s = .next t ∧
      (gd ≠ 0 → gRead (t.coreAhead c) gd.toNat = gRead k ga.toNat + gRead k gb.toNat) ∧
      (∀ r, r ≠ gd.toNat → gRead (t.coreAhead c) r = gRead k r) ∧
      gRead (t.coreAhead c) 0 = 0 ∧ (t.ahead c).mem = s.mem

/-- R96, R112, R117: `sc.sig` adds to its counter; `sc.wait` and `sc.waitt` register the core's own watch and hold the core
until it fires; `sc.squash` begins the squash of the next epoch. -/
def Obligations.ScalarSyncRequests : Prop :=
  ∀ (s : State) (c : Nat) (l : Launch) (ga gb : G), Ready s c l → (s.coreAhead c).clean [ga, gb] = true →
    let k := s.coreAhead c
    let u := (s.ahead c).modCore c fun _ => afterSlot k k
    let i := (gRead k ga.toNat).toNat % 65536
    let v := gRead k gb.toNat
    let who := (s.ahead c).coreWho c
    let prov := (s.ahead c).coreProv c
    let hold : Core := { afterSlot k k with
      run := .held, waiting := some { since := u.now, bundle := (s.site c l).bundle, prov := prov, stream := l.stream } }
    let watch (cond counter : Nat) (value time : Word) : Watch :=
      { cond := cond, view := prov.isSome, dest := 0, counter := counter, value := value, time := time,
        word3 := 0, who := .core c, epoch := prov }
    (∀ w, u.counterAdd who i v = (none, w) →
      ∃ t, exec (.scSig c ga gb) s = .next t ∧ { t with answer := w.answer } = w) ∧
    (u.sync.permit who .watch i = none → u.sync.holds (watch 0 i v 0) = none →
      ∃ t, exec (.scWait c ga gb) s = .next t ∧ t.core c = hold ∧
        t.sync = { u.sync with watches := u.sync.watches.set none (4064 + c) (some (watch 0 i v 0)) }) ∧
    (u.sync.holds (watch 1 0 0 (gRead k ga.toNat)) = none →
      ∃ t, exec (.scWaitt c ga) s = .next t ∧ t.core c = hold ∧
        t.sync = { u.sync with watches := u.sync.watches.set none (4064 + c) (some (watch 1 0 0 (gRead k ga.toNat))) }) ∧
    (∀ p, (s.site c l).prov = none → gRead k ga.toNat = (s.site c l).e.committed + 1 → u.partOfCore c = some p →
      (u.part p).attempt < 15 →
      ∃ t, exec (.scSquash c ga) s = .next t ∧ { t with answer := u.answer } = u.squash p (gRead k ga.toNat) ∧
        (t.part p).squash = some (gRead k ga.toNat) ∧ (t.part p).attempt = (u.part p).attempt + 1)

/-- R106, R111: `mv.go` reads its descriptor in the next cycle; `mv.accst` reads its first row pair in this one. -/
def Obligations.MoveInstructionsIssue : Prop :=
  ∀ (s : State) (c : Nat) (l : Launch) (m : BitVec 1) (ga gb : G) (row : BitVec 10) (pairs : BitVec 9) (form : Form)
      (mode : BitVec 2), Ready s c l →
    let k := s.coreAhead c
    let x := s.site c l
    let a := (gRead k ga.toNat).toNat
    let st := (gRead k gb.toNat).toNat
    let n := pairs.toNat + 1
    (k.clean [ga] = true → a % 128 = 0 → a ≤ 0x2FFF80 → moverLoad k m.toNat < 16 →
      OnCore (.mvGo c m ga) s c (afterSlot k (fly x 1 1 (.mvGo m.toNat a (k.mv.get {} m.toNat).draw false) k))) ∧
    (k.clean [ga, gb] = true → row.toNat % 2 = 0 → row.toNat + 2 * n ≤ 1024 → k.port.accRead ≤ k.cycle →
      Vectors a st (2 * n) form.rowBytes →
      OnCore (.mvAccst c m ga gb row pairs form mode) s c
        (afterSlot k (fly x 1 0 (.accRead m.toNat a st row.toNat n 0 form mode.toNat)
          { k with port := { k.port with accRead := k.cycle + n } })))

/-- R48 to R51, R60, R65: the four matrix instructions, each where its unit is free and its operands are in place. -/
def Obligations.MatrixInstructionsIssue : Prop :=
  ∀ (s : State) (c : Nat) (l : Launch) (cls : Cls) (sr : BitVec 1) (base rows : BitVec 10) (ga gb gc : G)
      (ty : BitVec 3) (sc : BitVec 2) (ovr int : BitVec 1) (form : Form), Ready s c l →
    let k := s.coreAhead c
    let x := s.site c l
    let a := (gRead k ga.toNat).toNat
    let st := (gRead k gb.toNat).toNat
    let z := (gRead k gc.toNat).toNat
    let n := rows.toNat + 1
    let b := base.toNat
    let t := cls.ty ty.toNat
    let k3 := Num.Scaling.ofCode sc.toNat
    let tile : Tile := { cls := cls, ty := t, scaling := k3, tscale := z % 256 }
    (k.clean [ga, gb, gc] = true → k.statUse.get 0 sr.toNat ≤ k.cycle → cls.codeOk ty = true → cls.admits t = true →
      Num.scalingOk t k3 (z % 256) = true → k.port.load ≤ k.cycle → Vectors a st 256 (cls.rowBytes t) →
      ScaleArray k3 z (if k3 = .tile then 8 * (cls.kt / 32) else 256 * scaleBytes cls.kt k3) →
      OnCore (.mmLd c cls sr ga gb gc ty sc) s c (afterSlot k (fly x 2 1 (.mmLd sr.toNat tile a st z 0)
        (noteStat x sr.toNat { k with
          port := { k.port with load := k.cycle + 256 },
          stat := k.stat.mod {} sr.toNat fun y => { y with ready := false, poison := false, loading := some tile } })))) ∧
    (let reg := k.stat.get {} sr.toNat
     let busy := if cls.wide then 4 * n else n
     let o : StreamOp :=
      { cls := cls, s := sr.toNat, base := b, rows := n, addr := a, stride := st, ty := t, scaling := k3,
        scale := if k3.len = 0 then z % 256 else z, ovr := ovr == 1 }
     k.clean [ga, gb, gc] = true → cls.codeOk ty = true → reg.ready = true → reg.poison = false → reg.tile.cls = cls →
      cls.admits t = true → cls.pairOk t reg.tile.ty = true → Num.scalingOk t k3 (z % 256) = true → b + n ≤ 1024 →
      (ovr = 1 ∨ ∀ i < n, k.rowMode.get false (b + i) = (cls == .i8) ∧ k.rowPoison.get false (b + i) = false) →
      k.port.stream ≤ k.cycle → Vectors a st n (cls.rowBytes t) →
      ScaleArray k3 z (if k3 = .tile then (n + 31) / 32 * (cls.kt / 32) else n * scaleBytes cls.kt k3) →
      OnCore (.mmStream c cls sr base rows ga gb gc ty sc ovr) s c
        (let k1 : Core := { k with
            port := { k.port with stream := k.cycle + busy },
            statUse := k.statUse.set 0 sr.toNat (k.cycle + busy),
            rowMode := if ovr == 1 then (List.range n).foldl (fun m j => m.set false (b + j) (cls == .i8)) k.rowMode
              else k.rowMode,
            rowPoison := if ovr == 1 then k.rowPoison.clearRange b (b + n) else k.rowPoison }
         afterSlot k (fly x 2 1 (.mmStream o 0 0 []) (if ovr == 1 || x.prov.isSome then noteRows x b n k1 else k1)))) ∧
    (b + n ≤ 1024 → k.port.stream ≤ k.cycle →
      OnCore (.mmZero c base rows int) s c (afterSlot k (fly x 2 20 (.zeroRows b n 0 (int == 1)) (noteRows x b n { k with
        port := { k.port with stream := k.cycle + (n + 7) / 8 },
        rowMode := (List.range n).foldl (fun m j => m.set false (b + j) (int == 1)) k.rowMode,
        rowPoison := k.rowPoison.clearRange b (b + n) })))) ∧
    (k.clean [ga] = true → b + n ≤ 1024 → k.port.stream ≤ k.cycle → Vectors a form.rowBytes n form.rowBytes →
      OnCore (.mmAccLd c base rows ga form) s c (afterSlot k (fly x 2 1 (.accLd b n a 0 form) (noteRows x b n { k with
        port := { k.port with stream := k.cycle + n },
        rowMode := if form = .raw then k.rowMode
          else (List.range n).foldl (fun m j => m.set false (b + j) (form == .int32)) k.rowMode,
        rowPoison := k.rowPoison.clearRange b (b + n) }))))

/-- R72, R76, R84: the vector instructions that touch the local store, the accumulators or a function table. -/
def Obligations.VectorTransfersIssue : Prop :=
  ∀ (s : State) (c : Nat) (l : Launch) (vd va : VReg) (pm : Pm) (gs : G) (w : Seg) (off len : BitVec 8) (mode : BitVec 2)
      (row : BitVec 10) (int : BitVec 1) (sf : Option (BitVec 2)) (tt : BitVec 4), Ready s c l →
    let k := s.coreAhead c
    let x := s.site c l
    let a := (gRead k gs.toNat).toNat
    let p := pRead k pm.pm.toNat
    let act := activeMask 32 512 p
    let keep := writeMask 32 512 p (pm.zero == 1)
    let toV (ev : Ev) : Core := fly x 3 1 ev
      (noteV x vd.toNat { k with port := { k.port with ls := k.cycle + 1 }, vDue := k.vDue.set 0 vd.toNat (k.cycle + 8) })
    (k.clean [gs] = true → vePoison k [] [pm.pm] [] = false → k.port.ls ≤ k.cycle → k.vFree vd 8 →
      (a % 64 = 0 → a + 2048 ≤ 0x300000 →
        OnCore (.veLd c vd pm gs) s c (afterSlot k (toV (.veLd vd.toNat a act keep)))) ∧
      (a % 4 = 0 → a + 4 * (512 / w.width) ≤ 0x300000 →
        OnCore (.veLdb c vd pm gs w) s c (afterSlot k (toV (.veLdb vd.toNat a w.width act keep))))) ∧
    (let o := 8 * off.toNat
     let n := 8 * (len.toNat + 1)
     k.clean [gs] = true → vePoison k [va] [] [] = false → k.port.ls ≤ k.cycle → a % 8 = 0 → a + n ≤ 0x300000 →
      o + n ≤ 2048 →
      OnCore (.veSt c va gs off len) s c (afterSlot k (fly x 3 5 (.veSt a (((vBytes (vRead k va.toNat)).drop o).take n))
        { k with port := { k.port with ls := k.cycle + 1 } }))) ∧
    (k.clean [gs] = true → k.port.tl ≤ k.cycle → a % 64 = 0 → a + 4160 ≤ 0x300000 →
      OnCore (.veTld c tt gs) s c (afterSlot k (fly x 3 1 (.veTld tt.toNat a 0 [] false)
        (noteT x tt.toNat { k with port := { k.port with tl := k.cycle + 65 } })))) ∧
    (let lo := k.acc.get {} row.toNat
     let hi := k.acc.get {} (row.toNat + 1)
     let md := Num.Mode.ofCode mode.toNat
     let key := unitKey x.e k.ve.draw 0
     let rd (r : AccRow) (b j : Nat) (e : Nat) : Nat × Num.Cvt :=
       if int == 1 then readI32 r.int md (laneDraw md.sr key k.ve.draw.count (b + j)) e
       else readF32 r.int md (laneDraw md.sr key k.ve.draw.count (b + j)) e
     let lands (ev : Ev) : Flight :=
       { due := k.cycle + 6, slot := 3, no := k.issued, tag := l.tag, bundle := x.bundle, ev := ev, stream := l.stream }
     let es := (accEntries lo).mapIdx (rd lo 0) ++ (accEntries hi).mapIdx (rd hi 256)
     let nan := (es.mapIdx fun j e => if p.getLsbD j then e.2 else Num.Cvt.none).foldl Num.Cvt.or Num.Cvt.none |>.nanin
     vePoison k [] [pm.pm] [] = false → row.toNat % 2 = 0 → lo.poison = false → hi.poison = false →
      k.port.acc ≤ k.cycle → k.port.accRead ≤ k.cycle → k.vFree vd 6 → (∀ q, sf = some q → k.sFree q 6) →
      ∃ k', OnCore (.veAccrd c vd pm mode row int sf) s c (afterSlot k k') ∧
        k'.port = { k.port with acc := k.cycle + 1, accRead := k.cycle + 1 } ∧ k'.acc = k.acc ∧
        k'.flights = k.flights ++ [lands (.landV vd.toNat (ofLanes 32 (govern p (es.map (·.1)))) keep)]
          ++ (match sf with
            | some q => [lands (.landSeen q.toNat (lo.range || hi.range) (lo.inf || hi.inf)
                (lo.nan || hi.nan || (int == 1 && nan)))]
            | none => []))

/-- R74, R70, R71, Table 04-1: lane operations. The results of the active lanes are due after the cycles of Table 04-1. -/
def Obligations.VectorLaneResults : Prop :=
  ∀ (s : State) (c : Nat) (l : Launch) (vd va vc : VReg) (b : Src2) (pm : Pm), Ready s c l →
    let k := s.coreAhead c
    let x := s.site c l
    let p := pRead k pm.pm.toNat
    let put (n w : Nat) (ls : List Nat) : Core :=
      afterSlot k (flyV x vd n (ofLanes w (govern p ls)) (writeMask w (16384 / w) p (pm.zero == 1))
        { k with port := { k.port with alu := k.cycle + 1 } })
    let a32 := lanes32 (vRead k va.toNat)
    let a16 := lanes16 (vRead k va.toNat)
    let b32 := src2Lanes k 32 b
    let b16 := src2Lanes k 16 b
    k.port.alu ≤ k.cycle → k.clean b.gs = true → vePoison k (va :: b.vs) [pm.pm] [] = false →
    (k.vFree vd 4 → ∀ e ∈ [(Instr.veAddF32 c vd va b pm, 32, List.zipWith Num.addF32 a32 b32),
        (.veSubF32 c vd va b pm, 32, List.zipWith (fun u v => Num.toF32 ((Num.f32 u).add (Num.f32 v).neg)) a32 b32),
        (.veMulF32 c vd va b pm, 32, List.zipWith Num.mulF32 a32 b32),
        (.veAddBf16 c vd va b pm, 16, List.zipWith (fun u v => Num.toBF ((Num.bf u).add (Num.bf v))) a16 b16),
        (.veMulBf16 c vd va b pm, 16, List.zipWith (fun u v => Num.toBF ((Num.bf u).mul (Num.bf v))) a16 b16)],
      OnCore e.1 s c (put 4 e.2.1 e.2.2)) ∧
    (k.vFree vd 4 → vePoison k [vc] [] [] = false →
      let c32 := lanes32 (vRead k vc.toNat)
      let c16 := lanes16 (vRead k vc.toNat)
      ∀ e ∈ [(Instr.veFmaF32 c vd va b vc pm, 32, List.zipWith (fun u z => Num.fmaF32 u.1 u.2 z) (a32.zip b32) c32),
        (.veFmsF32 c vd va b vc pm, 32,
          List.zipWith (fun u z => Num.toF32 (((Num.f32 u.1).mul (Num.f32 u.2)).add (Num.f32 z).neg)) (a32.zip b32) c32),
        (.veFmaBf16 c vd va b vc pm, 16,
          List.zipWith (fun u z => Num.toBF (((Num.bf u.1).mul (Num.bf u.2)).add (Num.bf z))) (a16.zip b16) c16)],
      OnCore e.1 s c (put 4 e.2.1 e.2.2)) ∧
    (k.vFree vd 2 → ∀ e ∈ [(Instr.veAddI32 c vd va b pm, List.zipWith (fun u v => (u + v) % 2 ^ 32) a32 b32),
        (.veSubI32 c vd va b pm, List.zipWith (fun u v => (u + 2 ^ 32 - v % 2 ^ 32) % 2 ^ 32) a32 b32),
        (.veShlI32 c vd va b pm, List.zipWith (fun u v => u * 2 ^ (v % 32) % 2 ^ 32) a32 b32),
        (.veShrI32 c vd va b pm, List.zipWith (fun u v => u / 2 ^ (v % 32)) a32 b32),
        (.veAnd c vd va b pm, List.zipWith (· &&& ·) a32 b32), (.veOr c vd va b pm, List.zipWith (· ||| ·) a32 b32),
        (.veXor c vd va b pm, List.zipWith (· ^^^ ·) a32 b32), (.veMinF32 c vd va b pm, List.zipWith Num.minF32 a32 b32),
        (.veMaxF32 c vd va b pm, List.zipWith Num.maxF32 a32 b32)],
      OnCore e.1 s c (put 2 32 e.2)) ∧
    (k.vFree vd 2 → ∀ e ∈ [(Instr.veMov c vd va pm, a32),
        (.veAbsF32 c vd va pm, a32.map fun u => if (Num.f32 u).isNan then 0x7FC00000 else u % 2 ^ 31),
        (.veNegF32 c vd va pm, a32.map fun u => if (Num.f32 u).isNan then 0x7FC00000 else u ^^^ 2 ^ 31)],
      OnCore e.1 s c (put 2 32 e.2))

/-- R70, R71, R74: compares, the select and the predicate logic. A compare clears bits 512 to 1,023; writes to p0 have no
effect. -/
def Obligations.PredicateResults : Prop :=
  ∀ (s : State) (c : Nat) (l : Launch) (vd va : VReg) (b : Src2) (pm : Pm) (cc : CmpC) (pd pa pb ps : PReg), Ready s c l →
    let k := s.coreAhead c
    let x := s.site c l
    let p := pRead k pm.pm.toNat
    let k1 : Core := { k with port := { k.port with alu := k.cycle + 1 } }
    let a32 := lanes32 (vRead k va.toNat)
    let b32 := src2Lanes k 32 b
    let low : BitVec 1024 := BitVec.ofNat 1024 (2 ^ 512 - 1)
    let cmp (l : List Bool) : Core := afterSlot k (flyP x pd 2 (ofPred l &&& p &&& low)
      (if pm.zero == 1 then BitVec.allOnes 1024 else p ||| ~~~low) k1)
    k.port.alu ≤ k.cycle →
    (k.clean b.gs = true → vePoison k (va :: b.vs) [pm.pm] [] = false → k.pFree pd 2 →
      OnCore (.veCmpF32 c cc pd va b pm) s c (cmp (List.zipWith (cmpLaneF cc) a32 b32)) ∧
      OnCore (.veCmpI32 c cc pd va b pm) s c (cmp (List.zipWith (cmpLaneI cc) a32 b32))) ∧
    (k.clean b.gs = true → vePoison k (va :: b.vs) [pm.pm, ps] [] = false → k.vFree vd 2 →
      OnCore (.veSel c ps vd va b pm) s c (afterSlot k (flyV x vd 2
        (ofLanes 32 (govern p ((a32.zip b32).mapIdx fun j ab => if (pRead k ps.toNat).getLsbD j then ab.1 else ab.2)))
        (writeMask 32 512 p (pm.zero == 1)) k1))) ∧
    (vePoison k [] [pa, pb] [] = false → k.pFree pd 1 →
      let u := pRead k pa.toNat
      let v := pRead k pb.toNat
      ∀ e ∈ [(Instr.vePand c pd pa pb, u &&& v), (.vePor c pd pa pb, u ||| v), (.vePxor c pd pa pb, u ^^^ v),
          (.vePnot c pd pa, ~~~u)],
        OnCore e.1 s c (afterSlot k (flyP x pd 1 e.2 (BitVec.allOnes 1024) k1)))

/-- R78, R79, R41: `ve.cvt` and `ve.scode`; R84, R85: function instructions of a loaded table; R75, R81: reductions and
`ve.summ`. A converting instruction takes its draws and raises its flags. -/
def Obligations.ConversionAndReductionResults : Prop :=
  ∀ (s : State) (c : Nat) (l : Launch) (vd va : VReg) (given : Option VReg) (pm : Pm) (gs : G) (mode : BitVec 2)
      (target source ty : Num.Ty) (sc sd : BitVec 2) (half : BitVec 1) (tbl : BitVec 3) (der : Bool) (w : Seg)
      (pq pc : PReg) (mag merge : BitVec 1), Ready s c l →
    let k := s.coreAhead c
    let x := s.site c l
    let p := pRead k pm.pm.toNat
    let keep := writeMask 32 512 p (pm.zero == 1)
    let a32 := lanes32 (vRead k va.toNat)
    let md := Num.Mode.ofCode mode.toNat
    let draw (j : Nat) : Nat := laneDraw md.sr (unitKey x.e k.ve.draw 0) k.ve.draw.count j
    let alu (n : Nat) : Core := { k with port := { k.port with alu := k.cycle + n } }
    let k3 := Num.Scaling.ofCode sc.toNat
    let z := (gRead k gs.toNat).toNat % 256
    (source ≠ .int64 → half = 0 ∨ halfTy target = true ∨ halfTy source = true → cvtOk source target k3 given.isSome z = true →
      k.clean [gs] = true → vePoison k (va :: given.toList) [pm.pm] [] = false → k.port.alu ≤ k.cycle → k.vFree vd 5 →
      let r := cvtResult target k3 md half.toNat z p (pm.zero == 1) (cvtSources source k3 half.toNat z 0 (vRead k va.toNat))
        ((List.range 512).map draw) (given.map fun g => lanes32 (vRead k g.toNat))
      OnCore (.veCvt c vd va given pm gs mode target source sc half) s c (afterSlot k (flyV x vd 5 r.val r.mask
        (veConv x md.sr r.flags (alu (if target.scaled && k3.blocky then 2 else 1)))))) ∧
    (half = 0 ∨ halfTy target = true → cvtOk .int64 target k3 given.isSome z = true →
      k.clean [gs] = true → vePoison k (va :: given.toList) [pm.pm] [] = false → k.port.alu ≤ k.cycle → k.vFree vd 5 →
      let r := cvtResult target k3 md half.toNat z p (pm.zero == 1)
        ((List.range 512).map fun j => Num.Ty.int64.decode (Config.free (s.freeIdx + j)).toNat)
        ((List.range 512).map draw) (given.map fun g => lanes32 (vRead k g.toNat))
      ∃ t, exec (.veCvt c vd va given pm gs mode target .int64 sc half) s = .next t ∧ t.freeIdx = s.freeIdx + 512 ∧
        t.core c = afterSlot k (flyV x vd 5 r.val r.mask
          (veConv x md.sr r.flags (alu (if target.scaled && k3.blocky then 2 else 1))))) ∧
    (ty.scaled = true → vePoison k [va] [pm.pm] [] = false → k.port.alu ≤ k.cycle → k.vFree vd 5 →
      OnCore (.veScode c vd va pm ty) s c
        (afterSlot k (flyV x vd 5 (ofLanes 32 (govern p (a32.map (scodeLane ty)))) keep (alu 1)))) ∧
    (let tb := k.tables.get {} (tbl.toNat + if der then 8 else 0)
     vePoison k [va] [pm.pm] [] = false → k.tableReady (tbl.toNat + if der then 8 else 0) = true → tb.poison = false → k.port.fn ≤ k.cycle →
      (k.vFree vd 12 →
        OnCore (if der then .veFndF32 c vd va pm tbl else .veFnF32 c vd va pm tbl) s c
          (afterSlot k (flyV x vd 12 (ofLanes 32 (govern p (a32.map (fnEval tb.image)))) keep
            { k with port := { k.port with fn := k.cycle + 2 } }))) ∧
      (k.vFree vd 14 →
        let rs := (lanes16 (vRead k va.toNat)).mapIdx fun j a =>
          Num.fmtBF16.convert md (draw j) (Num.f32 (fnEval tb.image (a * 65536)))
        let f := (rs.mapIdx fun j e => if p.getLsbD j then e.2 else Num.Cvt.none).foldl Num.Cvt.or Num.Cvt.none
        OnCore (if der then .veFndBf16 c vd va pm mode tbl else .veFnBf16 c vd va pm mode tbl) s c
          (afterSlot k (flyV x vd 14 (ofLanes 16 (govern p (rs.map (·.1)))) (writeMask 16 1024 p (pm.zero == 1))
            (veConv x md.sr f { k with port := { k.port with fn := k.cycle + 4 } }))))) ∧
    (vePoison k [va] [pm.pm] [] = false → k.port.red ≤ k.cycle → k.vFree vd 10 →
      ∀ e ∈ [(Instr.veRsumF32 c vd va pm w, RedOp.sum), (.veRmaxF32 c vd va pm w, .max), (.veRamaxF32 c vd va pm w, .amax)],
        OnCore e.1 s c (afterSlot k (flyV x vd 10 (ofLanes 32 (govern p (reduce e.2 w p a32))) keep
          { k with port := { k.port with red := k.cycle + 1 } }))) ∧
    (vePoison k [va] [pq, pc] (if merge == 1 && !k.summWaits sd.toNat then [sd.toNat] else []) = false →
      (merge = 1 → k.sumOp.get false sd.toNat = (mag == 1)) → k.port.red ≤ k.cycle → k.sFree sd 14 →
      OnCore (.veSumm c sd va pq pc mag merge) s c
        (let k1 : Core := { k with
            port := { k.port with red := k.cycle + 1 },
            sumOp := k.sumOp.set false sd.toNat (mag == 1),
            sDue := k.sDue.set 0 sd.toNat (k.cycle + 14) }
         afterSlot k (fly x 3 14 (.landS sd.toNat (summOf (pRead k pq.toNat) (pRead k pc.toNat) (mag == 1) a32) (merge == 1))
          (if merge == 1 && x.prov.isNone then k1 else noteS x sd.toNat k1))))

/-- R49, R73, R82, R84, R91: a landing that is due takes effect. The commands that perform landings, each on a core with one in
flight: what it writes, and that nothing else of the module changes. -/
def Obligations.LandingsTakeEffect : Prop :=
  ∀ (s : State) (c : Nat) (f : Flight), OneFlight s c f → f.due ≤ (s.core c).cycle →
    let k : Core := { s.core c with flights := [] }
    (∀ r val mask, f.ev = .landV r val mask → ∃ k', OnCoreMem (.veResultLand c) s c k' s.mem ∧
      vRead k' r = (vRead k r &&& ~~~mask) ||| (val &&& mask) ∧ (∀ q, q ≠ r → vRead k' q = vRead k q) ∧
      k'.ve.vPoison = (if f.keep.getLsbD r then k.ve.vPoison else k.ve.vPoison &&& ~~~(BitVec.ofNat 32 (2 ^ r))) ∧
      { k' with v := k.v, ve := k.ve } = k ∧ { k'.ve with vPoison := k.ve.vPoison } = k.ve) ∧
    (∀ r val mask, f.ev = .landP r val mask → ∃ k', OnCoreMem (.veResultLand c) s c k' s.mem ∧
      (r ≠ 0 → pRead k' r = (pRead k r &&& ~~~mask) ||| (val &&& mask)) ∧ pRead k' 0 = BitVec.allOnes 1024 ∧
      (∀ q, q ≠ r → pRead k' q = pRead k q) ∧ { k' with p := k.p, ve := k.ve } = k) ∧
    (∀ r x merge, f.ev = .landS r x merge → ∃ k', OnCoreMem (.summaryLand c) s c k' s.mem ∧
      k'.sum.get {} r = { (if merge then landSumm (k.sum.get {} r) x true else x) with
        poison := f.keep.getLsbD r && (k.sum.get {} r).poison } ∧
      (∀ q, q ≠ r → k'.sum.get {} q = k.sum.get {} q) ∧ { k' with sum := k.sum } = k) ∧
    (∀ r a b d, f.ev = .landSeen r a b d → ∃ k', OnCoreMem (.summaryLand c) s c k' s.mem ∧
      (let o := k.sum.get {} r
       k'.sum.get {} r = { o with seenRange := o.seenRange || a, seenInf := o.seenInf || b, seenNan := o.seenNan || d, poison := f.keep.getLsbD r && o.poison }) ∧
      (∀ q, q ≠ r → k'.sum.get {} q = k.sum.get {} q) ∧ { k' with sum := k.sum } = k) ∧
    (∀ r tile, f.ev = .statReady r tile → ∃ k', OnCoreMem (.stationaryReady c) s c k' s.mem ∧
      (k'.stat.get {} r).ready = true ∧ (k'.stat.get {} r).loading = none ∧
      (k'.stat.get {} r).tile = tile ∧ (k'.stat.get {} r).poison = (k.stat.get {} r).poison ∧
      (∀ q, q ≠ r → k'.stat.get {} q = k.stat.get {} q) ∧ { k' with stat := k.stat } = k) ∧
    (∀ row x, f.ev = .landRow row x → ∃ k', OnCoreMem (.accRowWrite c) s c k' s.mem ∧
      k'.acc.get {} row = { x with poison := x.poison || (f.keep.getLsbD row && (k.acc.get {} row).poison) } ∧ (∀ q, q ≠ row → k'.acc.get {} q = k.acc.get {} q) ∧ { k' with acc := k.acc } = k) ∧
    (∀ row r x ovr, f.ev = .landStream row r x ovr → ∃ k', OnCoreMem (.accRowWrite c) s c k' s.mem ∧
      (let old := k.acc.get {} row
       let new := (passRow x (k.stat.get {} r).tile ovr old).1
       k'.acc.get {} row = { new with poison := new.poison || (f.keep.getLsbD row && old.poison) }) ∧
      (∀ q, q ≠ row → k'.acc.get {} q = k.acc.get {} q) ∧ k'.me.rows = k.me.rows + 1 ∧
      { k' with acc := k.acc, me := k.me } = k) ∧
    (∀ base rows i int, f.ev = .zeroRows base rows i int → rows ≤ 8 * (i + 1) →
      ∃ k', OnCoreMem (.accRowWrite c) s c k' s.mem ∧
        (∀ q, base + 8 * i ≤ q → q < base + rows → k'.acc.get {} q = { int := int, poison := f.keep.getLsbD q && (k.acc.get {} q).poison }) ∧
        (∀ q, (q < base + 8 * i ∨ base + rows ≤ q) → k'.acc.get {} q = k.acc.get {} q) ∧ { k' with acc := k.acc } = k) ∧
    (∀ t img sq, f.ev = .tableSwitch t img sq → ∃ k', OnCoreMem (.tableSwitch c) s c k' s.mem ∧
      k'.tables.get {} t = { image := img, ready := true, poison := sq || (f.keep.getLsbD t && (k.tables.get {} t).poison) } ∧
      (∀ q, q ≠ t → k'.tables.get {} q = k.tables.get {} q) ∧ { k' with tables := k.tables } = k)

/-- R104, R105, R395: a timed touch that is due and meets no bank conflict, reserved or external bank: a store changes the bytes
it names in the core's local store and no other byte of memory; a load puts its bytes, least significant first, on the way to
its register, seven cycles after the touch. R105: a touch of a bank that is reserved for a descriptor, or opened to external accesses, is not performed: the core halts
with BANK_RESERVED, and no byte of memory changes. R111: the pair read of `mv.accst` in RAW form takes the two rows, judged for poison as they are read, and stores their
images seven cycles later; the last pair ends the instruction. -/
def Obligations.LocalStoreTouchesRun : Prop :=
  (∀ (s : State) (c : Nat) (f : Flight), OneFlight s c f → f.due < (s.core c).cycle →
    reserved (s.core c) ||| (s.core c).extBanks = 0 → banksDistinct (touchLines f.ev) = true →
    let k : Core := { s.core c with flights := [] }
    (∀ off v, f.ev = .scSt off v → ∃ m, OnCoreMem (.lsTouch c []) s c k m ∧
      Stored s.mem m (lsAddr c off) (leBytes v.toNat 8)) ∧
    (∀ off data, f.ev = .veSt off data → ∃ m, OnCoreMem (.lsTouch c []) s c k m ∧ Stored s.mem m (lsAddr c off) data) ∧
    (∀ gd off, f.ev = .scLd gd off → (touchLines f.ev).all (fun l => !s.mem.poison.get false (lsAddr c (64 * l))) = true →
      (s.core c).cycle < f.due + 7 →
      OnCoreMem (.lsTouch c []) s c
        { k with flights := [f.after 7 (.landG gd (BitVec.ofNat 64 (leNat (lsRead s.mem c off 8))))] } s.mem)) ∧
  (∀ (s : State) (c : Nat) (f : Flight) (off : Nat) (v : Word), OneFlight s c f → f.due < (s.core c).cycle →
    f.ev = .scSt off v → off % 8 = 0 → (reserved (s.core c) ||| (s.core c).extBanks).getLsbD (off / 64 % 64) = true →
    (s.core c).err = false →
    ∃ t, exec (.lsTouch c []) s = .next t ∧ (t.core c).run = .halted ∧ (t.core c).err = true ∧
      (t.core c).errCode = Err.bankReserved ∧ t.mem.bytes = s.mem.bytes) ∧
  (∀ (s : State) (c : Nat) (f : Flight) (m addr stride row pairs i mode : Nat), OneFlight s c f →
    f.ev = .accRead m addr stride row pairs i .raw mode → f.due < (s.core c).cycle → (s.core c).cycle < f.due + 7 →
    pairs ≤ i + 1 →
    let k := s.core c
    let lo := k.acc.get {} (row + 2 * i)
    let hi := k.acc.get {} (row + 2 * i + 1)
    (lo.poison = false → hi.poison = false → ∃ k', OnCoreMem (.mvAccstPairRead c) s c k' s.mem ∧
      k'.flights = [f.after 7 (.accWrite (addr + 2 * i * stride) stride (rawImage lo) (rawImage hi))] ∧
      k'.mv.get {} m = k.mv.get {} m ∧ k'.acc = k.acc) ∧
    ((lo.poison || hi.poison) = true → k.err = false → ∃ t, exec (.mvAccstPairRead c) s = .next t ∧
      (t.core c).run = .halted ∧ (t.core c).errCode = Err.poisonedME ∧ t.mem = s.mem))

/-- R93, R94: the stored bundle issues as its four instructions: none of them sees what another writes, since each reads its
sources first; a word whose reserved opcode or unused bits fail the check does not issue, and the core halts with
BAD_ENCODING. -/
def Obligations.StoredBundleIssues : Prop :=
  ∀ (s : State) (c : Nat) (l : Launch), Ready s c l →
    let k := s.coreAhead c
    let w := k.bundles.get 0 (4096 * l.half + k.pc)
    (w = 0 → OnCore (.bundleIssue c) s c { afterBundle k.branch k with cycle := k.cycle + 1 }) ∧
    (∀ b, Bundle.decode w = some b → (issueSlots (s.site c l) b k).faults = [] → (issueSlots (s.site c l) b k).ext = [] →
      b.ve.freeUse = 0 → OnCore (.bundleIssue c) s c (issueSlots (s.site c l) b k).core) ∧
    (∀ gd ga gb : G, w = (ScOp.encode (.alu .add gd ga gb)).setWidth 256 →
      exec (.bundleIssue c) s = exec (.scAdd c gd ga gb) s) ∧
    (Bundle.decode w = none → k.err = false →
      ∃ t, exec (.bundleIssue c) s = .next t ∧ (t.core c).run = .halted ∧ (t.core c).errCode = Err.badEncoding ∧
        (t.core c).g = k.g ∧ (t.core c).flights = k.flights ∧ t.mem = (s.ahead c).mem)

/-- R92, R101, R102, R112, R113: a held core with no cause of its hold left issues again; the launch at the head of the queue
starts when it is copied and its tag is allowed, g1 taking its argument; a wait beyond its limit halts the core. R120: a partition that has been asked to halt stops every core of its own and no other, and is halted with the first
code. -/
def Obligations.HoldsLaunchesAndHalts : Prop :=
  (∀ (s : State) (c : Nat), c < 32 →
    let k := s.core c
    (k.run = .held → k.waiting = none → k.dutyHold = false → ∀ l, k.block = some l →
      let u := s.modCore c fun y => { y with run := .issuing }
      Ready u c l → (u.coreAhead c).bundles.get 0 (4096 * l.half + (u.coreAhead c).pc) = 0 →
      ∃ t, exec (.coreWake c) s = .next t ∧
        t.core c = { afterBundle (u.coreAhead c).branch (u.coreAhead c) with cycle := (u.coreAhead c).cycle + 1 }) ∧
    (∀ l rest p, k.launches = l :: rest → k.block = none → k.waiting = none → (k.run = .idle ∨ k.run = .held) → k.dutyHold = false →
      k.squashHold = false → l.copied = true → s.partOfCore c = some p → l.tag.toNat ≤ (s.part p).epoch.toNat + 1 →
      (s.part p).halted = false →
      ∃ t, exec (.launchStart c) s = .next t ∧ (t.core c).block = some l ∧ (t.core c).launches = rest ∧
        (t.core c).pc = 0 ∧ (t.core c).run = .issuing ∧ gRead (t.core c) 1 = l.arg ∧
        (∀ r, r ≠ 1 → gRead (t.core c) r = gRead k r) ∧ (∀ d, d ≠ c → t.core d = s.core d) ∧
        { t with cores := s.cores, answer := s.answer } = s) ∧
    (∀ w, k.waiting = some w → k.run = .held → k.waitLimit ≠ 0 → 1000 * k.waitLimit.toNat < s.now - w.since →
      ∃ t, exec (.waitLimit c) s = .next t ∧ (t.core c).run = .halted ∧ (t.core c).waiting = none ∧
        (k.err = false → (t.core c).errCode = Err.waitLimit) ∧ t.mem = s.mem ∧
        (t.sync.watches.get none (4064 + c)) = none)) ∧
  (∀ (s : State) (p : Nat) (code : Code) (k : Option Nat), p < 8 → (s.part p).haltReq = some (code, k) →
    ∃ t, exec (.partitionHalt p) s = .next t ∧ (t.part p).halted = true ∧ (t.part p).haltCode = code ∧
      (t.part p).haltReq = none ∧ (t.part p).commit = none ∧ ((s.part p).commit = none →
        (∀ c, (s.part p).holds c = true → (t.core c).run = .halted) ∧
        (∀ c, (s.part p).holds c = false → t.core c = s.core c) ∧ t.mem = s.mem))

/-- R94, Tables 05-3 to 05-8: every instruction of the four slots is read back from its word, with every operand at every value
its field admits: no bit of an encoding is dropped. -/
def Obligations.SlotEncodingsReadBack : Prop :=
  (∀ x : ScOp, ScOp.decode x.encode = some x) ∧ (∀ x : MvOp, MvOp.decode x.encode = some x) ∧
    (∀ x : MmOp, x.wf = true → MmOp.decode x.encode = some x) ∧
    (∀ x : VeOp, x.wf = true → VeOp.decode x.encode = some x) ∧
    (∀ b : Bundle, b.mm.wf = true → b.ve.wf = true → Bundle.decode b.encode = some b)

/-- R130, R133, R141: an admitted read of a region without a cache answers with the bytes at the address that SIDE makes of its
own, and changes nothing but the byte counters of the targets. R130, R133, R137, R141: an admitted write of a region without a cache puts its bytes at the address that SIDE makes of its own;
every other byte of memory and, but for the byte counters of the targets, the rest of the module stay as they were. -/
def Obligations.AdmittedAccessesReachBytes : Prop :=
  (∀ (s : State) (r : Req) (h : Hit), 0 < r.len → r.kind = .read ∨ r.kind = .fetch → Admitted s { r with origin := .plain } h →
    r.ecc = .clean → h.reg.cache = false → s.mem.poisoned (h.target r) r.len = false →
    ∃ t, exec (.memRead (.plain r)) s = .next t ∧ t.answer = .ok (s.mem.bytes.getList 0 (h.target r) r.len) ∧
      t.mem = s.mem ∧ { t with mcs := s.mcs, answer := s.answer } = s) ∧
  (∀ (s : State) (r : Req) (h : Hit), 0 < r.len → r.kind = .write → r.len = r.data.length →
    Admitted s { r with origin := .plain } h → r.ecc = .clean → h.reg.cache = false → (s.part h.part).snap.drain = none →
    ∃ t, exec (.memWrite (.plain r)) s = .next t ∧ t.answer = .ok [] ∧ Stored s.mem t.mem (h.target r) r.data ∧
      t.mem.cache = s.mem.cache ∧ t.mem.held = s.mem.held ∧ { t with mem := s.mem, mcs := s.mcs, answer := s.answer } = s)

/-- R144, R146: an admitted ACCUMULATE of one FP32 element that is neither provisional nor in a DET region is combined with the
element in place in one step; one that is provisional, or in a DET region, only enters the deferral log, under the next epoch. -/
def Obligations.AccumulateCombinesOrIsDeferred : Prop :=
  ∀ (s : State) (r : Req) (h : Hit), r.kind = .acc → r.ty = 9 → r.op = 0 → r.len = 4 → r.data.length = 4 →
    r.addr % 4 = 0 → Admitted s { r with origin := .plain } h → (s.part h.part).snap.drain = none →
    let prov := provOf r.prov r.epochLo (s.part h.part).epoch == .provisional
    let a := h.target r
    (prov = false → h.reg.det = false → r.ecc = .clean → a % 4 = 0 → s.mem.poisoned a 4 = false → s.mem.cache.get none (a / 128) = none →
      ∃ t, exec (.memAccumulate (.plain r)) s = .next t ∧ t.answer = .ok [] ∧
        Stored s.mem t.mem a (leBytes (Num.fmtFP32.convert Num.Mode.ieee 0
          ((Num.f32 (leNat (s.mem.bytes.getList 0 a 4))).add (Num.f32 (leNat r.data)))).1 4) ∧
        { t with mem := s.mem, mcs := s.mcs, answer := s.answer } = s) ∧
    ((prov || h.reg.det) = true → (s.part h.part).mem.used + 128 ≤ (s.part h.part).mem.deferSize →
      ∃ t d, exec (.memAccumulate (.plain r)) s = .next t ∧ t.answer = .ok [] ∧ t.mem = s.mem ∧ t.mcs = s.mcs ∧
        (t.part h.part).mem.deferLog = (s.part h.part).mem.deferLog ++ [d] ∧ d.phys = a ∧ d.data = r.data ∧
        d.epoch = (s.part h.part).epoch + 1 ∧ d.prov = prov ∧ d.applied = false ∧
        ∀ q, q ≠ h.part → t.part q = s.part q)

/-- R126, R130, R135, R138: what a target refuses or holds: an address that Table 06-2 leaves unmapped, a request that no entry holds,
an entry that does not grant it, a stale epoch. Memory does not change; the partition that governs captures the first refusal. A
request of an epoch not yet begun is held. -/
def Obligations.RequestsRefusedOrHeld : Prop :=
  ∀ (s : State) (r : Req) (h : Hit) (p : Nat), 0 < r.len → r.len = r.data.length → r.kind = .write → r.remote = false →
    r.unit < 0x60 → s.partOfUnit r.unit = some p →
    let refused (code : Code) : Prop := ∃ t, exec (.memWrite (.plain r)) s = .next t ∧ t.answer = .refused code ∧
      t.mem = s.mem ∧ ((s.part p).mem.err = false → (t.part p).mem.err = true ∧ (t.part p).mem.errCode = code ∧
        (t.part p).mem.faultAddr = r.addr)
    (zoneOf r.addr r.len = .none → refused Err.noRegion) ∧
    (zoneOf r.addr r.len = .pan → s.hit [p] r.addr r.len = none → refused Err.noRegion) ∧
    (zoneOf r.addr r.len = .pan → s.hit [p] r.addr r.len = some h → h.part = p →
      (h.reg.w = false → refused Err.permission) ∧
      (h.reg.w = true → provOf r.prov r.epochLo (s.part p).epoch = .stale → refused Err.epochStale) ∧
      (h.reg.w = true → provOf r.prov r.epochLo (s.part p).epoch = .hold → s.counted (targetOf r.addr) < 64 →
        ∃ t, exec (.memWrite (.plain r)) s = .next t ∧ t.answer = .held ∧ t.mem.bytes = s.mem.bytes ∧
          ∃ q, t.heldAt (targetOf r.addr) = s.heldAt (targetOf r.addr) ++ [q] ∧ q.req.addr = r.addr ∧ q.req.data = r.data))

/-- R133: in a PAIRED region the two views reach the two halves, exchanged where SIDE = 1; two addresses of the region never reach one
byte. R16, R134, R148, R277: the indivisible event of COMMIT: the committed epoch becomes the new one, SIDE toggles in every valid PAIRED entry
of the partition, the applied records leave the log, and no other partition's entries change. An apply pass that meets no error
applies every record and reports so. -/
def Obligations.PairedViewsAndCommit : Prop :=
  (∀ (g : Region) (a b n : Nat), g.paired = true → 0 < n → g.limit + 1 = g.base + 2 * n → g.base ≤ a → a ≤ g.limit →
    g.base ≤ b → b ≤ g.limit →
    (g.phys a).1 = (if g.side = (decide (g.base + n ≤ a)) then g.base + (a - g.base) % n else g.base + n + (a - g.base) % n) ∧
      (g.phys a).2 = decide (g.base + n ≤ a) ∧ ((g.phys a).1 = (g.phys b).1 → a = b)) ∧
  (∀ (s : State) (p : Nat) (cm : Commit), p < 8 → (s.part p).commit = some cm →
    ((s.part p).squash = some cm.epoch → ∀ i ∈ [Instr.commitEvent p, .applyPass p []],
      ∃ t, exec i s = .next t ∧ { t with answer := s.answer } = s) ∧
    ((s.part p).squash ≠ some cm.epoch → cm.applied = true → (s.part p).mem.passOrder cm.epoch = [] →
      ∃ t, exec (.commitEvent p) s = .next t ∧ (t.part p).epoch = cm.epoch ∧ (t.part p).commit = none ∧
        (t.part p).attempt = 0 ∧
        (∀ i, (t.part p).mem.regions.get {} i = (let g := (s.part p).mem.regions.get {} i
          if g.valid && g.paired then { g with side := !g.side } else g)) ∧
        ∀ q, q ≠ p → (t.part q).mem.regions = (s.part q).mem.regions ∧ (t.part q).epoch = (s.part q).epoch) ∧
    ((s.part p).squash ≠ some cm.epoch → (s.part p).mem.passOrder cm.epoch = [] → ∃ t, exec (.applyPass p []) s = .next t ∧ t.answer = .ok [] ∧
      (t.part p).commit = some { cm with applied := true } ∧ t.mem = s.mem) ∧
    (∀ d : DeferRec, (s.part p).squash ≠ some cm.epoch → (s.part p).mem.deferLog = [d] → d.epoch = cm.epoch → d.applied = false → d.ty = 9 → d.op = 0 →
      d.data.length = 4 → d.phys % 4 = 0 → s.mem.poisoned d.phys 4 = false → s.mem.cache.get none (d.phys / 128) = none →
      ∃ t, exec (.applyPass p []) s = .next t ∧ (t.part p).commit = some { cm with
          applied := true, undo := (d.phys, s.mem.bytes.getList 0 d.phys 4) :: cm.undo } ∧
        (t.part p).mem.deferLog = [{ d with applied := true }] ∧
        Stored s.mem t.mem d.phys (leBytes (Num.fmtFP32.convert Num.Mode.ieee 0
          ((Num.f32 (leNat (s.mem.bytes.getList 0 d.phys 4))).add (Num.f32 (leNat d.data)))).1 4)))

/-- R131, R132, R139, R143, R151, R153, R156: the memory registers: the dispatch processor's writes take effect, those of every other
requester are refused with PERMISSION and leave tables, thresholds and memory as they were. R136, R151, R153, R154: what controllers and slices do on their own: a temperature reading and the throttle level it leads to,
a correction pass that marks what it cannot correct, the zero pass of LPDDR6 under new keys, and a held request that expires after 10 ms. -/
def Obligations.MemoryRegistersAndControllers : Prop :=
  (∀ (s : State) (p i sl mc : Nat) (w0 w1 w2 w3 : Word) (v : BitVec 32) (w : Who), p < 8 → i < 256 → sl < 8 → mc < 16 →
    (∀ u, s.regionPut p i w0.toNat w1.toNat w2.toNat w3.toNat = .ok u →
      exec (.regionWrite dispatch p i w0 w1 w2 w3) s = .next { u with answer := .ok [] } ∧
      (u.part p).mem.regions.get {} i = { regionOf w0.toNat w1.toNat w2.toNat with
        side := ((u.part p).mem.regions.get {} i).side }) ∧
    (∀ u, s.splitPut p sl v.toNat = .ok u →
      exec (.panSplitWrite dispatch p sl v) s = .next { u with answer := .ok [] } ∧
      (u.part p).mem.panSplit.get {} sl = panSplitOf v.toNat) ∧
    (8 ≤ mc → ∃ t, exec (.mcThreshWrite dispatch mc v) s = .next t ∧ 85 ≤ (t.mc mc).t1 ∧ (t.mc mc).t1 ≤ 100 ∧
      (t.mc mc).t1 + 5 ≤ (t.mc mc).t2 ∧ (t.mc mc).t2 ≤ 110 ∧
      ((s.mc mc).throttle = 0 → (t.mc mc).throttle = (if ((t.mc mc).t2 : Int) ≤ (s.mc mc).temp then 2
        else if ((t.mc mc).t1 : Int) ≤ (s.mc mc).temp then 1 else 0)) ∧
      ((t.mc mc).t1 = v.toNat % 256 ∧ (t.mc mc).t2 = v.toNat / 256 % 256 → t.answer = .ok [])) ∧
    (s.mem.wf = true → ∀ drop : Bool, ∃ t, exec (if drop then .panFlushDrop dispatch p else .panFlush dispatch p) s = .next t ∧
      (t.part p).mem.flushBusy = true ∧
      (∀ k l, t.mem.cache.get none k = some l → l.part = p → drop = false ∧ l.dirty = false) ∧
      (∀ k l, l.part ≠ p → (t.mem.cache.get none k = some l ↔ s.mem.cache.get none k = some l))) ∧
    ((s.part p).mem.flushBusy = true → ∃ t, exec (.panFlushDone p) s = .next t ∧ (t.part p).mem.flushBusy = false ∧
      t.mem = s.mem ∧ ∀ q, q ≠ p → t.part q = s.part q) ∧
    (w.isDispatch = false → ∀ c ∈ [Instr.regionWrite w p i w0 w1 w2 w3, .panSplitWrite w p sl v, .mcThreshWrite w mc v, .panFlush w p,
        .panFlushDrop w p],
      ∃ t, exec c s = .next t ∧ t.answer = .refused Err.permission ∧ t.mem = s.mem ∧ t.mcs = s.mcs ∧
        ∀ q, (t.part q).mem.regions = (s.part q).mem.regions ∧ (t.part q).mem.panSplit = (s.part q).mem.panSplit)) ∧
  (∀ (s : State) (mc refresh device corrected k target i : Nat) (temp : Int) (bad : List Nat) (fin : Bool),
    (mc < 16 → refresh < 3 → device < 16 → (s.mc mc).online = true →
      ∃ t, exec (.deviceTempRead mc temp refresh device) s = .next t ∧ (t.mc mc).temp = temp ∧ t.mem = s.mem ∧
        (8 ≤ mc → (s.mc mc).throttle = 0 → (t.mc mc).throttle = (if ((s.mc mc).t2 : Int) ≤ temp then 2
          else if ((s.mc mc).t1 : Int) ≤ temp then 1 else 0)) ∧
        ∀ j, j ≠ mc → t.mc j = s.mc j) ∧
    (mc < 16 → (s.mc mc).online = true → ∃ t, exec (.scrubPass mc corrected bad fin) s = .next t ∧
      (t.mc mc).scrub = (!fin) ∧ (t.mc mc).eccCorr = (s.mc mc).eccCorr + BitVec.ofNat 64 corrected ∧
      t.mem.bytes = s.mem.bytes ∧
      ∀ a ∈ bad, targetOf a = mc → zoneAt a ≠ .none → t.mem.poison.get false (a / poisonUnit a * poisonUnit a) = true) ∧
    (k < 2 → (s.mc (14 + k)).training = true → ∃ t, exec (.lpddr6ZeroDone k) s = .next t ∧ (t.mc (14 + k)).encReady = true ∧
      (∀ a, targetOf a = 14 + k → zoneAt a ≠ .none → t.mem.bytes.get 0 a = 0 ∧ t.mem.poison.get false a = false) ∧
      ∀ a, targetOf a ≠ 14 + k → t.mem.bytes.get 0 a = s.mem.bytes.get 0 a) ∧
    (∀ h, (s.heldAt target)[i]? = some h → s.noneParked → h.timed = true → h.since + 10000000 ≤ s.now → h.req.origin = .plain →
      ∃ t, exec (.heldRequestExpiry target i) s = .next t ∧ t.answer = .refused Err.epochStale ∧ t.mem.bytes = s.mem.bytes ∧
        h ∉ t.heldAt target))

/-- R115, R159 to R163, R170: on a counter that no watch waits for and that no barrier uses, a READ answers with the value in the
view that PROV selects, a SET puts a value and an ADD adds modulo 2⁶⁴, in the provisional view alone where the request is
provisional and in both otherwise; no other counter and nothing else of the module changes. The arrival counter of a barrier reads 0. -/
def Obligations.CounterOperations : Prop :=
  ∀ (s : State) (r : SWho) (i : Nat) (v : Word), i < 65536 →
    (s.sync.permit r .read i = none →
      (s.sync.barrierOf i = none →
        exec (.counterRead r i) s = .next { s with answer := .ok (leBytes (s.sync.val r.prov i).toNat 8) }) ∧
      (∀ b, s.sync.barrierOf i = some b →
        exec (.counterRead r i) s = .next { s with answer := .ok (leBytes (if b.a = i then 0 else s.sync.val r.prov i).toNat 8) })) ∧
    ((r.prov = true → (s.sync.group i).epoch = true) → s.sync.barrierOf i = none → s.sync.unwatched i → ∀ add : Bool,
      s.sync.permit r (if add then .add else .set) i = none →
      ∃ y : Sync, OnSync (if add then .counterAdd r i v else .counterSet r i v) s y ∧
        { y with counters := s.sync.counters, provs := s.sync.provs } = s.sync ∧
        ∀ view j, y.val view j = if j = i ∧ (view = true ∨ r.prov = false) then (if add then s.sync.val view i + v else v)
          else s.sync.val view j)

/-- R160, R163, R170, R184: what a counter refuses, and with which code: a group that is not VALID; a core, mover or stream of a
partition that does not own the group; a remote module or host software without its permission; a provisional change of a counter
that is not epoch-scoped; a SET of a barrier's counters by another than the dispatch processor. No counter and no watch changes, and
the first refusal is captured with the counter's address. -/
def Obligations.CounterRefusals : Prop :=
  ∀ (s : State) (r : SWho) (i : Nat) (v : Word), i < 65536 →
    let refused (c : Instr) (code : Code) : Prop := ∃ t, exec c s = .next t ∧ t.answer = .refused code ∧
      t.sync.counters = s.sync.counters ∧ t.sync.provs = s.sync.provs ∧ t.sync.watches = s.sync.watches ∧ t.mem = s.mem ∧
      t.cores = s.cores ∧ (s.sync.err = false → t.sync.err = true ∧ t.sync.errCode = code ∧ t.sync.faultAddr = 0x001000000000 + 8 * i)
    let g := s.sync.group i
    (g.valid = false → ∀ c ∈ [Instr.counterRead r i, .counterSet r i v, .counterAdd r i v], refused c Err.counterOwner) ∧
    (g.valid = true → r.remote = true → refused (.counterRead r i) Err.counterRemote ∧ refused (.counterSet r i v) Err.counterRemote ∧
      (g.remAdd = false → refused (.counterAdd r i v) Err.counterRemote)) ∧
    (g.valid = true → r.remote = false → 0x70 ≤ r.unit → r.unit ≤ 0x78 → refused (.counterAdd r i v) Err.counterRemote ∧
      (g.host = false → refused (.counterRead r i) Err.counterRemote ∧ refused (.counterSet r i v) Err.counterRemote)) ∧
    (g.valid = true → r.remote = false → r.unit < 0x60 → ∀ p, r.part = some p → g.part ≠ p →
      ∀ c ∈ [Instr.counterRead r i, .counterSet r i v, .counterAdd r i v], refused c Err.counterOwner) ∧
    (r.prov = true → g.epoch = false →
      (s.sync.permit r .set i = none → refused (.counterSet r i v) Err.counterEpoch) ∧
      (s.sync.permit r .add i = none → refused (.counterAdd r i v) Err.counterEpoch)) ∧
    ((r.prov = true → g.epoch = true) → s.sync.permit r .set i = none → s.sync.barrierOf i ≠ none → r.unit ≠ 0x61 →
      refused (.counterSet r i v) Err.barrierForm)

/-- R164, R165, R166: the owner of a slot arms it, and it stays armed while its condition does not hold; one that already holds fires at
once, wakes its core and leaves the slot free; an entry with ARM = 0 cancels; an addition that brings the counter to VALUE fires the
watch, which wakes the core and disarms. Another requester, a malformed entry, and an armed slot are refused. -/
def Obligations.WatchesArmAndFire : Prop :=
  ∀ (s : State) (r : SWho) (slot : Nat) (w0 w1 w2 w3 : Word), slot < 4096 →
    let w := mkWatch (w0 ||| 4) w1 w2 w3 r.waiter (s.provEpoch r.part r.prov) r.part
    let refused (c : Instr) (code : Code) : Prop := ∃ t, exec c s = .next t ∧ t.answer = .refused code ∧
      t.sync.watches = s.sync.watches ∧ t.sync.counters = s.sync.counters ∧ t.cores = s.cores
    (s.sync.owns r slot = true → s.sync.watchBad slot (w0 ||| 4) w3 = false → s.sync.watches.get none slot = none →
      (w.cond = 1 ∨ s.sync.permit r .watch w.counter = none) →
      (s.sync.holds w = none → OnSync (.watchArm r slot w0 w1 w2 w3) s { s.sync with watches := s.sync.watches.set none slot (some w) }) ∧
      (s.sync.holds w ≠ none → w.dest = 0 → ∃ t, exec (.watchArm r slot w0 w1 w2 w3) s = .next t ∧ t.answer = .ok [] ∧
        t.sync = s.sync ∧ (t.core (r.unit - 0x40)).waiting = none ∧ { t with cores := s.cores, answer := s.answer } = s)) ∧
    (s.sync.owns r slot = true → s.sync.watchBad slot (w0 &&& ~~~4) w3 = false →
      OnSync (.watchCancel r slot w0 w1 w2 w3) s { s.sync with watches := s.sync.watches.set none slot none }) ∧
    (s.sync.owns r slot = false → ∀ c ∈ [Instr.watchArm r slot w0 w1 w2 w3, .watchCancel r slot w0 w1 w2 w3], refused c Err.watchOwner) ∧
    (s.sync.owns r slot = true → s.sync.watchBad slot (w0 ||| 4) w3 = true → refused (.watchArm r slot w0 w1 w2 w3) Err.watchForm) ∧
    (s.sync.owns r slot = true → s.sync.watchBad slot (w0 ||| 4) w3 = false → s.sync.watches.get none slot ≠ none →
      refused (.watchArm r slot w0 w1 w2 w3) Err.watchFull) ∧
    (∀ (i c : Nat) (v : Word) (x : Watch), i < 65536 → c < 32 → s.sync.watches = [(slot, some x)] → x.counter = i → x.cond = 0 →
      x.dest = 0 → x.who = .core c → x.view = false → r.prov = false → s.sync.permit r .add i = none → s.sync.barrierOf i = none →
      x.value.toNat ≤ (s.sync.counters.get 0 i + v).toNat →
      ∃ t, exec (.counterAdd r i v) s = .next t ∧ t.sync.watches = [] ∧ (t.core c).waiting = none ∧
        t.sync.counters.get 0 i = s.sync.counters.get 0 i + v ∧ ∀ d, d ≠ c → t.core d = s.core d)

/-- R170 to R174: an ARRIVE judged against the round: its weight goes to the slot of the current or of the next round; two rounds ahead, a
completed round, a weight of 0 or above 8,191, and a slot above N are refused; the slot that reaches N becomes 0 and ROUND goes up by one,
at once again where the banked slot holds N too. Each view is judged by itself: a committed ARRIVE on an epoch-scoped barrier moves the
provisional view as a provisional one would. -/
def Obligations.BarrierRounds : Prop :=
  ∀ (s : State) (r : SWho) (i : Nat) (v : Word) (b : Barrier), i < 65536 → s.sync.permit r .add i = none →
    (r.prov = true → (s.sync.group i).epoch = true) → s.sync.barrierOf i = some b → b.a = i → b.n < 2 ^ 24 →
    (∀ k < 4, s.sync.unwatched (i + k)) →
    let now := s.sync.val r.prov
    let round := (now (i + 1)).toNat
    let lo := v.toNat % 4
    let w := v.toNat / 4
    let cur := i + 2 + round % 2
    let next := i + 2 + (round + 1) % 2
    let form := w ≠ 0 ∧ w < 8192
    let refused (code : Code) : Prop := ∃ t, exec (.counterAdd r i v) s = .next t ∧ t.answer = .refused code ∧
      t.sync.counters = s.sync.counters ∧ (r.prov = true → t.sync.provs = s.sync.provs)
    let gives (f : Nat → Word) : Prop := ∃ t, exec (.counterAdd r i v) s = .next t ∧ t.answer = .ok [] ∧
      ∀ j, t.sync.val r.prov j = f j
    (¬ form → refused Err.barrierForm) ∧
    (form → lo = (round + 2) % 4 → refused Err.barrierOverrun) ∧
    (form → lo = (round + 3) % 4 → refused Err.barrierStale) ∧
    (form → lo = round % 4 → b.n < (now cur).toNat + w → refused Err.barrierExcess) ∧
    (form → lo = (round + 1) % 4 → b.n < (now next).toNat + w → refused Err.barrierExcess) ∧
    (form → lo = round % 4 → (now cur).toNat + w < b.n →
      gives fun j => if j = cur then now cur + BitVec.ofNat 64 w else now j) ∧
    (form → lo = (round + 1) % 4 → (now cur).toNat ≠ b.n → (now next).toNat + w ≤ b.n →
      gives fun j => if j = next then now next + BitVec.ofNat 64 w else now j) ∧
    (form → lo = round % 4 → (now cur).toNat + w = b.n → (now next).toNat ≠ b.n →
      gives fun j => if j = cur then 0 else if j = i + 1 then now j + 1 else now j) ∧
    (form → lo = round % 4 → (now cur).toNat + w = b.n → (now next).toNat = b.n →
      gives fun j => if j = cur ∨ j = next then 0 else if j = i + 1 then now j + 2 else now j) ∧
    (r.prov = false → (s.sync.group i).epoch = true → ∃ t u, exec (.counterAdd r i v) s = .next t ∧
      exec (.counterAdd { r with prov := true } i v) s = .next u ∧ t.sync.provs = u.sync.provs)

/-- R160, R164, R170, R177, R182, R183: the registers of the sync unit, which the dispatch processor alone writes: groups; barrier entries,
refused with BARRIER_FORM where a VALID one has N of 0, an unaligned A, a group that is not the partition's, or another's counters, and kept as
they were; watch splits that overlap no other; FT_CTRL, which makes the root FREE and a new follower ACQUIRE. -/
def Obligations.SyncRegisterWrites : Prop :=
  ∀ (s : State) (p g b : Nat) (v : BitVec 32) (x : Word) (w : Who), p < 8 → g < 256 → b < 1024 →
    let e := barrierOfWord x.toNat
    let sp := splitOf v.toNat
    let refused (c : Instr) (code : Code) : Prop := ∃ t, exec c s = .next t ∧ t.answer = .refused code ∧
      t.sync.groups = s.sync.groups ∧ t.sync.barriers = s.sync.barriers ∧ t.sync.splits = s.sync.splits ∧ t.sync.ctrl = s.sync.ctrl ∧
      t.sync.ftState = s.sync.ftState ∧ (s.sync.err = false → t.sync.err = true ∧ t.sync.errCode = code)
    let apart : Prop := ∀ d f, d ≠ b → (d, f) ∈ s.sync.barriers → f.valid = true → f.a + 3 < e.a ∨ e.a + 3 < f.a
    let fits : Prop := sp.first + sp.count ≤ 3584 ∧ (sp.count = 0 ∨ ∀ q f, q ≠ p → (q, f) ∈ s.sync.splits → f.count = 0 ∨
      f.first + f.count ≤ sp.first ∨ sp.first + sp.count ≤ f.first)
    OnSync (.syncGroupWrite dispatch g v) s { s.sync with groups := s.sync.groups.set {} g (groupOf (v.toNat % 256)) } ∧
    ((e.valid = true → e.n ≠ 0 ∧ e.a % 4 = 0 ∧ (s.sync.group e.a).valid = true ∧ (s.sync.group e.a).part = p ∧ apart) →
      OnSync (.barrierWrite dispatch p b x) s { s.sync with barriers := s.sync.barriers.set {} b e }) ∧
    (e.valid = true → ¬ (e.n ≠ 0 ∧ e.a % 4 = 0 ∧ (s.sync.group e.a).valid = true ∧ (s.sync.group e.a).part = p ∧ apart) →
      refused (.barrierWrite dispatch p b x) Err.barrierForm) ∧
    (fits → OnSync (.watchSplitWrite dispatch p v) s { s.sync with splits := s.sync.splits.set {} p sp }) ∧
    (¬ fits → refused (.watchSplitWrite dispatch p v) Err.watchOwner) ∧
    (∃ t, exec (.ftCtrlWrite dispatch v) s = .next t ∧ t.answer = .ok [] ∧ t.sync.ctrl = ftCtrlOf v.toNat ∧ t.sync.ft = s.sync.ft ∧
      (v.getLsbD 1 = true → t.sync.ftState = .free) ∧
      (v.getLsbD 1 = false → v.getLsbD 0 = true → s.sync.ctrl.enable = false → t.sync.ftState = .acquire ∧ t.sync.ftLink = v.toNat / 4 % 64) ∧
      { t with sync := s.sync, freeIdx := s.freeIdx, answer := s.answer } = s) ∧
    (w.isDispatch = false → ∀ c ∈ [Instr.syncGroupWrite w g v, .barrierWrite w p b x, .watchSplitWrite w p v, .ftCtrlWrite w v],
      refused c Err.watchOwner)

/-- R175, R176, R177: fabric time. Loaded, and with nothing to slew, a tick adds one nanosecond; a FREE unit not loaded holds its value. The first
exchange after a full reset steps the time by the offset; afterwards it only slews. Eight exchanges in a row within 5 ns make the unit
LOCKED, and an offset beyond 1 µs makes it ACQUIRE again. R176, R177, R179: a time exchange: the child sends TIME_REQ with its time t1; the parent answers with TIME_RESP, which echoes t1 and the
number and carries t2; the child takes the offset that the four stamps give, with t3 widened against its own time. A TIME_RESP that answers no
exchange under way changes no time. -/
def Obligations.FabricTimeKept : Prop :=
  (∀ (s : State) (o d f : Int),
    let x := s.sync
    (x.watches = [] → ∃ y : Sync, OnSync .ftTick s y ∧ y.clock = x.clock + 1 ∧
      { y with clock := x.clock, ft := x.ft, slew := x.slew, frac := x.frac } = x ∧
      (x.ftState = .free → x.loaded = false → y.ft = x.ft ∧ y.slew = x.slew) ∧
      (x.ftState = .holdover → ((y.ft - x.ft).toNat : Int) * 1000000 + y.frac = 1000000 + x.frac + x.rate ∧ y.slew = x.slew) ∧
      (¬ (x.ftState = .free ∧ x.loaded = false) → x.ftState ≠ .holdover → x.slew = 0 → y.ft = x.ft + 1 ∧ y.slew = 0) ∧
      (¬ (x.ftState = .free ∧ x.loaded = false) → y.ft = x.ft ∨ y.ft = x.ft + 1 ∨ y.ft = x.ft + 2) ∧
      ((x.clock + 1) % 5000 ≠ 0 → y.slew = x.slew) ∧ (x.slew - y.slew).natAbs ≤ 1) ∧
    (x.ftState = .acquire → x.stepped = false → (x.exchange o d f).ft = x.ft + BitVec.ofInt 64 o ∧ (x.exchange o d f).stepped = true) ∧
    (x.ftState = .acquire → x.stepped = true → (x.exchange o d f).ft = x.ft ∧ (x.exchange o d f).slew = o) ∧
    (x.ftState = .acquire → ((x.exchange o d f).ftState = .locked ↔ o.natAbs ≤ 5 ∧ 7 ≤ x.goodEx)) ∧
    (x.ftState = .locked → (x.exchange o d f).ft = x.ft ∧ (x.exchange o d f).slew = o ∧
      ((x.exchange o d f).ftState = .acquire ↔ 1000 < o.natAbs) ∧ ((x.exchange o d f).ftState = .locked ↔ o.natAbs ≤ 1000)) ∧
    (x.ftState = .holdover → (x.exchange o d f).ftState = .acquire ∧ (x.exchange o d f).rate = f ∧
      (if x.stepped then (x.exchange o d f).ft = x.ft ∧ (x.exchange o d f).slew = o
        else (x.exchange o d f).ft = x.ft + BitVec.ofInt 64 o ∧ (x.exchange o d f).stepped = true)) ∧
    (x.exchange o d f).ftOffset = BitVec.ofInt 32 o ∧ (x.exchange o d f).ftDelay = d) ∧
  (∀ (s : State) (x : Pkt) (h : RxHalf) (n d : Nat) (g : TxHalf),
    (s.sync.ctrl.enable = true → s.sync.ctrl.root = false → s.up s.timeLink = true → (s.link s.timeLink).peerId = d →
      CanSend s d g → ∃ t o, exec .timeExchangeTimer s = .next t ∧ t.answer = .ok [] ∧ SentTo t d g o ∧ o.pkt.ty = tySync ∧
        o.pkt.f 0 1 = 0x10 ∧ o.pkt.f 8 8 = s.sync.ft.toNat ∧ o.pkt.f 24 2 = s.sync.exchNum % 2 ^ 16 ∧
        t.sync = { s.sync with ftLink := s.timeLink, exch := some { num := s.sync.exchNum % 2 ^ 16, t1 := s.sync.ft },
                               exchNum := (s.sync.exchNum % 2 ^ 16 + 1) % 2 ^ 16 } ∧
        t.mem = s.mem ∧ t.cores = s.cores) ∧
    (Arrives s x h n → x.ty = tySync → syncForm x = true →
      (x.f 0 1 = 0x10 → x.src = d → CanSend s d g → ∃ t o, exec (.timeReq x) s = .next t ∧ t.answer = .ok [] ∧ SentTo t d g o ∧
        o.pkt.ty = tySync ∧ o.pkt.f 0 1 = 0x11 ∧ o.pkt.f 8 8 = x.f 8 8 ∧ o.pkt.f 16 8 = s.sync.ft.toNat ∧ o.pkt.f 24 2 = x.f 24 2 ∧
        t.sync = s.sync ∧ t.mem = s.mem ∧ t.cores = s.cores) ∧
      (x.f 0 1 = 0x11 → ∃ t, exec (.timeResp x) s = .next t ∧ t.answer = .ok [] ∧ t.mem = s.mem ∧ t.cores = s.cores ∧
        (∀ e, s.sync.exch = some e → e.num = x.f 24 2 → e.t1 = BitVec.ofNat 64 (x.f 8 8) →
          let t2 := BitVec.ofNat 64 (x.f 16 8)
          let t3 := widen x.ftime s.sync.ft
          ∃ f, t.sync = s.sync.exchange (ftOffsetOf e.t1 t2 t3 s.sync.ft) (ftDelayOf e.t1 t2 t3 s.sync.ft) (ftRateOf f)) ∧
        (s.sync.exch = none → t.sync = s.sync))))

/-- R160, R162, R164, R169: sync packets of another module at this one: an ADD adds to a counter whose group grants it; a WATCH_REQ
takes the lowest free remote slot; one whose payload is not as Table 07-5 gives it is refused with SYNC_FORM and performs nothing. -/
def Obligations.SyncPacketsPerform : Prop :=
  ∀ (s : State) (x : Pkt) (h : RxHalf) (n : Nat), Arrives s x h n → x.ty = tySync →
    let i := x.f 2 2
    let view := x.prov && (s.sync.group i).epoch
    let w : Watch := { cond := x.f 1 1, view := view, dest := 2, counter := i, value := BitVec.ofNat 64 (x.f 8 8),
                       time := BitVec.ofNat 64 (x.f 16 8),
                       word3 := BitVec.ofNat 64 (x.src + x.f 24 2 * 2 ^ 16 + x.f 4 4 * 2 ^ 32), who := .remote x.src,
                       epoch := if view then some ((s.part (s.sync.group i).part).epoch + 1) else none }
    let keeps (t : State) : Prop := t.sync.counters = s.sync.counters ∧ t.sync.provs = s.sync.provs ∧
      t.sync.watches = s.sync.watches ∧ t.mem = s.mem ∧ t.cores = s.cores
    (syncForm x = true → x.f 0 1 = 0x01 →
      ((x.prov = true → (s.sync.group i).epoch = true) → s.sync.permit x.who .add i = none → s.sync.barrierOf i = none →
        s.sync.unwatched i →
        ∃ t, exec (.syncAdd x) s = .next t ∧ t.answer = .ok [] ∧ t.mem = s.mem ∧ t.cores = s.cores ∧
          { t.sync with counters := s.sync.counters, provs := s.sync.provs } = s.sync ∧
          ∀ v j, t.sync.val v j = if j = i ∧ (v = true ∨ x.prov = false) then s.sync.val v j + BitVec.ofNat 64 (x.f 4 4)
            else s.sync.val v j) ∧
      ∀ c, s.sync.permit x.who .add i = some c → ∃ t, exec (.syncAdd x) s = .next t ∧ t.answer = .refused c ∧ keeps t) ∧
    (syncForm x = true → x.f 0 1 = 0x02 → x.src < 2 ^ 14 →
      (∀ slot, s.sync.freeSlot 3808 256 = some slot → (x.f 1 1 = 1 ∨ s.sync.permit x.who .watch i = none) → s.sync.holds w = none →
        ∃ t, exec (.watchReq x) s = .next t ∧ t.answer = .ok [] ∧ t.mem = s.mem ∧ t.cores = s.cores ∧
          t.sync = { s.sync with watches := s.sync.watches.set none slot (some w) }) ∧
      (s.sync.freeSlot 3808 256 = none → ∃ t, exec (.watchReq x) s = .next t ∧ t.answer = .refused Err.watchFull ∧ keeps t)) ∧
    (syncForm x = false → ∀ c ∈ [Instr.syncAdd x, .watchReq x, .timeReq x, .timeResp x],
      ∃ t, exec c s = .next t ∧ t.answer = .refused Err.syncForm ∧ keeps t)

/-- R187, R202, R203, R211: packets that the endpoint does not perform: one performed before is acknowledged again; one beyond the window, or with
neither a window nor SYN, is dropped and counted; one with a malformed header, and every one while this module is fenced, is refused. Memory,
counters, collectives and cores stay as they were. -/
def Obligations.EndpointWindow : Prop :=
  ∀ (s : State) (x : Pkt) (ecc : Ecc) (bad : Option Nat) (c : Instr) (h : RxHalf) (n : Nat), s.mine x = true → x.src ≠ s.fab.id →
    (c, x.ty) ∈ [(Instr.write x ecc bad, tyWrite), (.readReq x ecc bad, tyReadReq), (.accumulate x ecc bad, tyAccumulate),
      (.collData x, tyCollData)] →
    let d := (x.seq + 2 ^ 16 - n) % 2 ^ 16
    let gives (a : Ans) (drops : Word) : Prop := ∃ t, exec c s = .next t ∧ t.answer = a ∧ s.fab.drops + drops = t.fab.drops ∧ t.mem = s.mem ∧
      t.sync = s.sync ∧ t.rake = s.rake ∧ t.cores = s.cores ∧ t.parts = s.parts
    let some' (a : Ans) : Prop := ∃ t, exec c s = .next t ∧ t.answer = a ∧ t.mem = s.mem ∧
      t.sync = s.sync ∧ t.rake = s.rake ∧ t.cores = s.cores ∧ t.parts = s.parts
    (x.formOk = false → some' (.refused Err.hdrForm)) ∧
    (x.formOk = true → (s.fab.routes.get {} s.fab.id).fence = true → some' (.refused Err.fenced)) ∧
    (x.formOk = true → (s.fab.routes.get {} s.fab.id).fence = false → s.fab.rxOf x.rxKey = some h →
      (h.base = some n → 2 ^ 15 ≤ d ∨ (d < 64 ∧ h.map.getLsbD d = true) → some' (.ok [])) ∧
      (h.base = some n → 64 ≤ d → d < 2 ^ 15 → gives .idle 1) ∧
      (h.base = none → x.syn = false → gives .idle 1))

/-- R130, R144, R188, R189, R202: memory-form packets at their target: a WRITE stores its payload; a READ_REQ is answered by READ_RESP, with
its SEQ and offset and the bytes read; an ACCUMULATE of one FP32 element adds it in place; an offset that no region table maps is refused.
A packet performed in order moves NEXT on by one. -/
def Obligations.PacketsReachMemory : Prop :=
  ∀ (s : State) (x : Pkt) (h : RxHalf) (n : Nat) (g : Hit), Arrives s x h n → s.counted (targetOf x.offset) < 64 →
    let moved (t : State) : Prop := t.cores = s.cores ∧ t.sync = s.sync ∧ t.rake = s.rake ∧
      (x.seq = n → h.map = 0 → ∃ h', t.fab.rxOf x.rxKey = some h' ∧ h'.base = some ((n + 1) % 2 ^ 16))
    (x.ty = tyWrite → 0 < x.len → x.len = x.payload.length → g.reg.cache = false → (s.part g.part).snap.drain = none →
      Admitted s (x.req 0 .write x.payload x.len .clean none) g →
      ∃ t, exec (.write x .clean none) s = .next t ∧ t.answer = .ok [] ∧ moved t ∧
        Stored s.mem t.mem (g.target (x.req 0 .write x.payload x.len .clean none)) x.payload) ∧
    (x.ty = tyReadReq → 0 < x.len → g.reg.cache = false → Admitted s (x.req 0 .read [] x.len .clean none) g →
      let a := g.target (x.req 0 .read [] x.len .clean none)
      s.mem.poisoned a x.len = false →
      ∃ t, exec (.readReq x .clean none) s = .next t ∧ t.answer = .ok [] ∧ moved t ∧ t.mem = s.mem ∧
        ∀ k, s.way { dst := x.src, src := s.fab.id, cls := x.cls, ty := tyReadResp, len := x.len, seq := x.seq, offset := x.offset,
                     payload := s.mem.bytes.getList 0 a x.len } = .link k →
          ∃ cv q, q ∈ (t.port k).queues.get [] cv ∧ q.pkt.ty = tyReadResp ∧ q.pkt.dst = x.src ∧ q.pkt.seq = x.seq ∧
            q.pkt.offset = x.offset ∧ q.pkt.payload = s.mem.bytes.getList 0 a x.len) ∧
    (x.ty = tyAccumulate → x.payload.length = 20 → x.len = 20 → x.prov = false → g.reg.det = false → (s.part g.part).snap.drain = none →
      let r := x.req (x.payload.getD 0 0).toNat .acc (x.payload.drop 16) 4 .clean none
      r.ty = 9 → r.op = 0 → Admitted s r g → x.offset % 4 = 0 → g.target r % 4 = 0 → s.mem.poisoned (g.target r) 4 = false →
      s.mem.cache.get none (g.target r / 128) = none →
      ∃ t, exec (.accumulate x .clean none) s = .next t ∧ t.answer = .ok [] ∧ moved t ∧
        Stored s.mem t.mem (g.target r) (leBytes (Num.fmtFP32.convert Num.Mode.ieee 0
          ((Num.f32 (leNat (s.mem.bytes.getList 0 (g.target r) 4))).add (Num.f32 (leNat (x.payload.drop 16))))).1 4)) ∧
    (zoneOf x.offset x.len = .none →
      (x.ty = tyWrite → ∃ t, exec (.write x .clean none) s = .next t ∧ t.answer = .refused Err.noRegion ∧ t.mem = s.mem ∧ moved t) ∧
      (x.ty = tyReadReq → ∃ t, exec (.readReq x .clean none) s = .next t ∧ t.answer = .refused Err.noRegion ∧ t.mem = s.mem ∧ moved t))

/-- R190, R202, R204 to R206, R210, R211: what releases and what completes outstanding packets: an ACK releases all below its SEQ; a HELD ACK restarts
the timer of its packet; a NAK gives a mover's packet its code and asks the partition to halt, and one of FENCED leaves the window; READ_RESP
answers the read that asked. -/
def Obligations.AcknowledgementsRelease : Prop :=
  ∀ (s : State) (x : Pkt) (h : TxHalf) (o : OutPkt), x.dst = s.fab.id → x.formOk = true → (s.fab.routes.get {} s.fab.id).fence = false →
    s.fab.noneWaits → h.waiting = [] → (∀ q ∈ h.out, q.who = .none ∨ ∃ i, q.who = .sync i) →
    let same (t : State) : Prop := t.mem = s.mem ∧ t.sync = s.sync ∧ t.rake = s.rake ∧ t.parts = s.parts ∧ t.cores = s.cores
    (x.ty = tyAck → x.aux.testBit 12 = false → s.fab.txOf (.uni x.src) = some h →
      (x.aux.testBit 13 = false → ∃ t h', exec (.ack x) s = .next t ∧ t.answer = .ok [] ∧ same t ∧ t.fab.txOf (.uni x.src) = some h' ∧
        h'.out = h.out.filter (fun q => !seqBefore q.pkt.seq x.seq) ∧
        h'.retries = if (h.out.take 1).any (fun q => seqBefore q.pkt.seq x.seq) then 0 else h.retries) ∧
      (x.aux.testBit 13 = true → ∃ t h', exec (.ack x) s = .next t ∧ t.answer = .ok [] ∧ same t ∧ t.fab.txOf (.uni x.src) = some h' ∧
        h'.out = h.out.map fun q => if q.pkt.seq = x.seq then { q with held := true, timer := s.now } else q)) ∧
    (x.ty = tyNak → x.nakKey = .uni x.src → s.fab.txOf (.uni x.src) = some h → h.out.find? (fun q => q.pkt.seq == x.seq) = some o →
      ∃ t h', exec (.nak x) s = .next t ∧ t.answer = .ok [] ∧ same t ∧ t.fab.txOf (.uni x.src) = some h' ∧
        (x.aux = Err.fenced → h'.out = h.out.filter fun q => q.pkt.seq != x.seq) ∧
        (x.aux ≠ Err.fenced → h'.out = h.out.map fun q => if q.pkt.seq = x.seq then { q with acked := [x.src] } else q)) ∧
    (∀ c m seq p b, x.ty = tyNak → x.nakKey = .uni x.src → x.aux ≠ 0 → s.fab.txOf (.uni x.src) = some { h with out := [o] } →
      o.pkt.seq = x.seq → o.acked = [] → o.who = .mover c m seq → (s.mover c m).active = [b] → b.seq = seq → b.stopped = false →
      s.partOfCore c = some p → (s.part p).halted = false → (s.part p).haltReq = none → (s.mover c m).err = false →
      ∃ t, exec (.nak x) s = .next t ∧ (t.mover c m).err = true ∧ (t.mover c m).errCode = x.aux ∧
        (t.mover c m).active = [{ b with stopped := true }] ∧ (t.part p).haltReq = some (x.aux, none)) ∧
    (x.ty = tyReadResp → s.asked x = some o →
      ∃ t, exec (.readResp x) s = .next t ∧ t.answer = .ok [] ∧ t.mem = s.mem ∧ t.sync = s.sync ∧ t.parts = s.parts ∧
        t.fab.reads = (s.fab.reads.filter fun q => q != o) ∧
        (∀ g, s.fab.txOf (.uni x.src) = some g → ∃ g', t.fab.txOf (.uni x.src) = some g' ∧
          g'.out = g.out.map fun q => if q = o then { q with acked := [x.src] } else q) ∧
        ∀ c m seq a, o.who = .mover c m seq → s.activeOf c m seq = some a →
          t.activeOf c m seq = some (a.arrive x.src x.offset x.payload))

/-- R200, R204 to R207, R216: the timers of the endpoint and the reset of its contexts. Before its time a timer changes nothing. The oldest
performed packet is acknowledged 1 µs after it was performed, a held one again every 25 µs; an unacknowledged one is sent again after
FAB_TIMEOUT, until RETRY_MAX expiries make the peer unreachable; an idle context is reclaimed after 10 ms or 5 ms. -/
def Obligations.EndpointTimers : Prop :=
  ∀ (s : State) (key : TxKey) (rkey : RxKey) (h : TxHalf) (r : RxHalf) (id q t0 : Nat) (o : OutPkt) (w : Who) (all : Bool), s.fab.parked = [] →
    (match rkey with
      | .uni d => d ≠ s.fab.id
      | .group d _ => d ≠ s.fab.id) →
    let same (t : State) : Prop := t.mem = s.mem ∧ t.sync = s.sync ∧ t.cores = s.cores ∧ t.rake = s.rake
    (s.fab.rxOf rkey = some r →
      (r.oldest = some t0 → t0 + 1000 ≤ s.now → ∃ t r', exec (.ackTimer rkey) s = .next t ∧ t.answer = .ok [] ∧ same t ∧
        t.fab.rxOf rkey = some r' ∧ r'.unacked = 0 ∧ r'.oldest = none ∧ r'.base = r.base ∧ r'.map = r.map) ∧
      (r.oldest = some t0 → s.now < t0 + 1000 → exec (.ackTimer rkey) s = .next { s with answer := .idle }) ∧
      (r.held = [(q, t0)] → t0 + 25000 ≤ s.now → ∃ t r', exec (.heldAckTimer rkey) s = .next t ∧ t.answer = .ok [] ∧ same t ∧
        t.fab.rxOf rkey = some r' ∧ r'.held = [(q, s.now)]) ∧
      (r.held = [] → r.unacked = 0 → r.last + 5000000 ≤ s.now →
        OnFab (.rxContextReclaim rkey) s { s.fab with rx := s.fab.rx.filter fun y => y.key != rkey })) ∧
    (s.fab.txOf key = some h →
      (h.out = [] → h.waiting = [] → h.idleSince + 10000000 ≤ s.now →
        OnFab (.txContextReclaim key) s { s.fab with tx := s.fab.tx.filter fun y => y.key != key }) ∧
      (h.out.head? = some o → s.now < o.timer + 1000 * s.fab.timeout →
        exec (.retxTimeout key) s = .next { s with answer := .idle }) ∧
      (h.out.head? = some o → o.timer + 1000 * s.fab.timeout ≤ s.now →
        (h.retries + 1 < s.fab.retryMax →
          (∀ p ∈ h.out, p.pkt.mcast = false ∧ ∃ k, s.way { p.pkt with retx := true } = .link k) →
          ∃ t h', exec (.retxTimeout key) s = .next t ∧ t.answer = .ok [] ∧ same t ∧ t.fab.txOf key = some h' ∧
            h'.retries = h.retries + 1 ∧ h'.out = h.out.map fun p => if p.isHeld s then p else { p with timer := s.now, held := false }) ∧
        (s.fab.retryMax ≤ h.retries + 1 → (∀ p ∈ h.out ++ s.fab.reads, p.who = .none) → s.fab.noneWaits →
          ∃ t, exec (.retxTimeout key) s = .next t ∧ t.answer = .refused Err.peerUnreachable ∧ same t ∧ t.fab.txOf key = none ∧
            (s.fab.err = false → t.fab.err = true ∧ t.fab.errCode = Err.peerUnreachable)))) ∧
    (id < 2 ^ 14 →
      (∃ t, exec (.fabCtxReset dispatch id all) s = .next t ∧ t.answer = .ok [] ∧ t.mem = s.mem ∧ t.sync = s.sync ∧
        (∀ k h', k.named id all = true → t.fab.txOf k = some h' → h'.out = [] ∧ h'.next = 0 ∧ h'.waiting = [] ∧ h'.retries = 0) ∧
        (∀ k h', k.named id all = true → t.fab.rxOf k = some h' → h'.base = none ∧ h'.map = 0 ∧ h'.held = [])) ∧
      (w.isDispatch = false → ∃ t, exec (.fabCtxReset w id all) s = .next t ∧ t.answer = .refused Err.routeLoad ∧ same t ∧
        t.fab.tx = s.fab.tx ∧ t.fab.rx = s.fab.rx))

/-- R187, R198, R199, R208, R212: the router: a unicast packet goes one hop on to the queue of its class and channel at the port that the route
table gives, on channel 1 once it crosses a dateline; it is refused where the destination is fenced, has no route, or lies beyond 15 hops; a
multicast packet goes to every port of its group; a class-0 packet of this module leaves when its port has a token. -/
def Obligations.RouterForwards : Prop :=
  ∀ (s : State) (port k : Nat) (x y : Pkt) (l : List Pkt), port < 36 → s.up port = true → x.src ≠ s.fab.id →
    let e := s.fab.routes.get {} x.dst
    let g := s.fab.groups.get {} (x.dst % 2 ^ 12)
    let hop (crosses : Bool) : QPkt :=
      { pkt := { x with hops := x.hops + 1, vc := if crosses then 1 else x.vc }, home := some s.fab.nextIn }
    let queued (t : State) (k : Nat) (crosses : Bool) : Prop :=
      (t.port k).queues.get [] (2 * x.cls + (hop crosses).pkt.vc) = (s.port k).queues.get [] (2 * x.cls + (hop crosses).pkt.vc) ++ [hop crosses]
    let same (t : State) : Prop := t.mem = s.mem ∧ t.sync = s.sync ∧ t.cores = s.cores ∧ t.fab.routes = s.fab.routes ∧ t.fab.rx = s.fab.rx
    let refused (code : Code) : Prop := ∃ t, exec (.packetRoute port x) s = .next t ∧ t.answer = .refused code ∧ t.mem = s.mem ∧
      t.sync = s.sync ∧ t.cores = s.cores ∧ (s.fab.err = false → t.fab.err = true ∧ t.fab.errCode = code)
    (x.formOk = false → refused Err.hdrForm) ∧
    (x.formOk = true → x.mcast = false →
      (s.way x = .link k → ∃ t, exec (.packetRoute port x) s = .next t ∧ t.answer = .ok [] ∧ same t ∧
        queued t k (e.dateline.getLsbD k) ∧ ∀ j cv, (j, cv) ≠ (k, 2 * x.cls + (hop (e.dateline.getLsbD k)).pkt.vc) →
          (t.port j).queues.get [] cv = (s.port j).queues.get [] cv) ∧
      (e.fence = true → refused Err.fenced) ∧
      (e.fence = false → e.valid = false → refused Err.noRoute) ∧
      (e.fence = false → e.valid = true → e.here = true → ∃ t, exec (.packetRoute port x) s = .next t ∧ t.answer = .ok [] ∧ same t ∧
        ∀ j, (t.port j).queues = (s.port j).queues) ∧
      (e.fence = false → e.valid = true → e.here = false → k < 36 → e.primary.getLsbD k = true → s.up k = true → x.hops = 15 →
        refused Err.routeHops)) ∧
    (x.formOk = true → x.mcast = true → g.valid = true → x.hops < 15 → x.vc = 0 → g.leaf = 0 → (s.fab.routes.get {} s.fab.id).fence = false →
      ∃ t, exec (.packetRoute port x) s = .next t ∧ t.answer = .ok [] ∧ same t ∧ (∀ j < 36, g.mask.getLsbD j = true → queued t j (g.dateline.getLsbD j)) ∧
        ∀ j, g.mask.getLsbD j = false → (t.port j).queues = (s.port j).queues) ∧
    ((s.port k).c0wait = y :: l → k < 36 → ((s.port k).refill s.now).tokens ≠ 0 →
      ∃ t, exec (.class0Release k) s = .next t ∧ t.answer = .ok [] ∧ same t ∧ (t.port k).c0wait = l ∧
        (t.port k).tokens = ((s.port k).refill s.now).tokens - 1 ∧
        ∃ cv q, q ∈ (t.port k).queues.get [] cv ∧ q.pkt = { y with hops := y.hops + 1, vc := if s.datelineOf y k then 1 else y.vc })

/-- R197, R201, R203, R208, R211, R216: a packet handed to the endpoint takes the next SEQ of its context and SYN where none is outstanding; one for a
destination that this module fences completes with FENCED. The dispatch processor alone writes routes and groups; a route entry that names
another module as local or sets a reserved bit, and a group entry with a leaf outside its mask, are refused with ROUTE_LOAD. -/
def Obligations.PacketsAndTables : Prop :=
  ∀ (s : State) (x : Pkt) (h : TxHalf) (d g c m seq : Nat) (v : BitVec 128) (w : Who) (b : Active) (p : Nat), d < 2 ^ 14 → g < 2 ^ 12 →
    let y := { x with src := s.fab.id }
    let e := routeOf v
    let ge := groupEntryOf v
    let refused (i : Instr) : Prop := ∃ t, exec i s = .next t ∧ t.answer = .refused Err.routeLoad ∧ t.fab.routes = s.fab.routes ∧
      t.fab.groups = s.fab.groups ∧ t.mem = s.mem ∧ t.sync = s.sync ∧ (s.fab.err = false → t.fab.err = true ∧ t.fab.errCode = Err.routeLoad)
    let good : Prop := v.toNat < 2 ^ 111 ∧ (e.here = true → d = s.fab.id ∧ e.primary = 0)
    let leaves : Prop := ∀ k < 36, ge.leaf.getLsbD k = true → ge.mask.getLsbD k = true
    (x.mcast = false → x.dst = d → y.formOk = true → CanSend s d h → ∀ who, (∀ q r, who ≠ TxOrigin.serve q r) → (∀ q r i, who ≠ TxOrigin.mover q r i) → (∀ q, who ≠ TxOrigin.drain q) →
      ∃ t o, exec (.packetAdmit (.plain x who)) s = .next t ∧ t.answer = .ok [] ∧ SentTo t d h o ∧ o.who = who ∧
        o.pkt = { y with seq := h.next, syn := h.out.isEmpty, hops := 0, vc := 0, retx := false } ∧ t.mem = s.mem ∧ t.sync = s.sync ∧
        t.cores = s.cores) ∧
    exec (.packetAdmit (.plain x (.mover c m seq))) s = .next { s with answer := .idle } ∧
    (∀ mv ad n, mv.c = c → mv.m = m → mv.seq = seq → b.readAt mv.what = some d → b.readSpan mv = some (ad, n) → n ≤ 8192 →
      b.unread mv = true → (s.fab.routes.get {} d).fence = true → (s.mover c m).active = [b] → b.seq = seq → b.stopped = false → s.partOfCore c = some p → (s.part p).halted = false → (s.part p).haltReq = none →
      ∃ t, exec (.packetAdmit (.mover mv)) s = .next t ∧ t.fab.tx = s.fab.tx ∧
        (t.mover c m).active = [{ b with stopped := true }] ∧ (t.part p).haltReq = some (Err.fenced, none)) ∧
    (∀ i, y.formOk = true → x.mcast = true → (s.fab.groups.get {} (x.dst % 2 ^ 12)).members = 0 →
      ∃ t, exec (.packetAdmit (.plain x (.sync i))) s = .next t ∧ t.fab.tx = s.fab.tx ∧ t.fab.ports = s.fab.ports ∧
        (s.fab.err = false → t.fab.err = true ∧ t.fab.errCode = Err.mcastForm)) ∧
    (good → OnFab (.routeWrite dispatch d v) s { s.fab with routes := s.fab.routes.set {} d e }) ∧
    (¬ good → refused (.routeWrite dispatch d v)) ∧
    (leaves → OnFab (.mcastWrite dispatch g v) s { s.fab with groups := s.fab.groups.set {} g ge }) ∧
    (¬ leaves → refused (.mcastWrite dispatch g v)) ∧
    (w.isDispatch = false → refused (.routeWrite w d v) ∧ refused (.mcastWrite w g v))

/-- R224, R230: a change of a link's map that has been announced takes effect at its slot, in either direction: LEAVE removes the lane and the slots
above move down; JOIN appends it as the highest; SWAP puts the spare in its place and leaves the direction without one. Before its slot
nothing changes. R224, R241, R243: a migration: announced, it doubles its slot from E on; confirmed, the old lane stops at the first slot divisible by 8 that is at
least 4 later; then the spare carries the slot, the old lane is to return as the spare, the direction has none, and the link state stays.
Without a confirmation in 10 µs it ends, is tried again after 100 µs, and fails for good the third time. A SWAP of the lane of a migration
ends the migration (R250); a lane without a usable spare reports it once. -/
def Obligations.MapsChangeAndMigrate : Prop :=
  (∀ (s : State) (k : Nat) (rx : Bool) (a : Announce), k < 36 → (if rx then (s.link k).heard else (s.link k).ann) = [a] →
    let l := s.link k
    let now := if rx then l.rxSlot else l.slot
    let past (t : State) : Prop := (if rx then (t.link k).heard else (t.link k).ann) = []
    let others (t : State) (ns : List Nat) : Prop := ∀ n, n ∉ ns → (t.link k).role rx n = l.role rx n
    (now < a.effect → ∀ i ∈ [Instr.leave k rx, .join k rx, .swap k rx], exec i s = .next { s with answer := .idle }) ∧
    (a.effect ≤ now → a.op = 1 → LinkWork (.leave k rx) s k fun t => past t ∧ (t.link k).map rx = (l.map rx).filter (· != a.lane) ∧
      (t.link k).map (!rx) = l.map (!rx) ∧ (t.link k).spare rx = l.spare rx ∧ (t.link k).role rx a.lane = 6 ∧ others t [a.lane]) ∧
    (a.effect ≤ now → a.op = 2 → a.lane ∉ l.map rx → (l.map rx).length < 8 → LinkWork (.join k rx) s k fun t => past t ∧
      (t.link k).map rx = l.map rx ++ [a.lane] ∧ (t.link k).map (!rx) = l.map (!rx) ∧ (t.link k).spare rx = l.spare rx ∧
      (t.link k).role rx a.lane = 1 ∧ others t [a.lane]) ∧
    (a.effect ≤ now → a.op = 3 → a.lane ∈ l.map rx → l.spare rx < 9 → l.spare rx ≠ a.lane → LinkWork (.swap k rx) s k fun t => past t ∧
      (t.link k).map rx = (l.map rx).map (fun x => if x = a.lane then l.spare rx else x) ∧ (t.link k).map (!rx) = l.map (!rx) ∧
      (t.link k).spare rx = 15 ∧ (t.link k).role rx a.lane = 6 ∧ (t.link k).role rx (l.spare rx) = 1 ∧
      (rx = false → (∀ m, l.mig = some m → m.lane = a.lane) → (t.link k).mig = none) ∧ others t [a.lane, l.spare rx])) ∧
  (∀ (s : State) (k slot lane : Nat) (m : Migration) (a : Announce) (t0 : Nat),
    let l := s.link k
    (l.ann = [a] → a.op = 4 → a.effect ≤ l.slot → l.mig = some m →
      OnLink (.migrate k) s k { l with ann := [], mig := some { m with effect := a.effect, begun := s.now } }) ∧
    (l.ann = [] → l.mig = some m → m.slot = slot → m.confirmed = false →
      OnLink (.migrationConfirm k slot) s k { l with mig := some { m with confirmed := true, stopAt := (l.slot + 3 + 7) / 8 * 8 } }) ∧
    (l.mig = some m → m.confirmed = true → m.stopAt ≤ l.slot → m.lane ≠ l.txSpare →
      LinkWork (.migrationBreak k) s k fun t => (t.link k).mig = none ∧
        (t.link k).txMap = l.txMap.map (fun x => if x = m.lane then l.txSpare else x) ∧ (t.link k).txSpare = 15 ∧
        (t.link k).role false m.lane = 6 ∧ (t.link k).role false l.txSpare = 1 ∧ ((t.link k).lane m.lane).txBack = .spare ∧
        t.linkState k = s.linkState k ∧
        Captured s t Err.fadeMigrated) ∧
    (l.ann = [] → l.mig = some m → m.confirmed = false → m.begun + 10000 ≤ s.now →
      LinkWork (.migrationTimeout k) s k fun t => (t.link k).mig = none ∧ (t.link k).txMap = l.txMap ∧ (t.link k).txSpare = l.txSpare ∧
        (l.migTries + 1 < 3 → (t.link k).migTries = l.migTries + 1 ∧ (t.link k).migRetry = some (s.now + 100000) ∧ t.opt.err = s.opt.err) ∧
        (3 ≤ l.migTries + 1 → (t.link k).migTries = 0 ∧ (t.link k).migRetry = none ∧ Captured s t Err.migrationFailed)) ∧
    (l.migRetry = some t0 → t0 ≤ s.now → l.mig = none → l.txMap[l.migSlot]? = some lane → l.ann = [] →
      LinkWork (.migrationRetry k) s k fun t => (t.link k).migRetry = none ∧ (t.link k).txMap = l.txMap ∧
        (l.txSpareOk = true → ∃ n, (t.link k).mig = some n ∧ n.slot = l.migSlot ∧ n.lane = lane ∧ n.effect = (l.slot + 4 + 7) / 8 * 8 ∧
          (t.link k).ann = [{ op := 4, lane := l.migSlot, first := l.slot, effect := (l.slot + 4 + 7) / 8 * 8 }]) ∧
        (l.txSpareOk = false → (t.link k).mig = none ∧ ((t.link k).lane lane).exhausted = true ∧
          ((l.lane lane).exhausted = false → Captured s t Err.spareExhausted) ∧
          ((l.lane lane).exhausted = true → t.opt.err = s.opt.err))))

/-- R231, R233 to R237, R239: what rings do: a lock loop holds its heater code; a receive ring that hears another tone goes to FAULT, asks
the sender to release the lane, to resweep too where no tone came, and reports WRONG_LOCK; a released lane is swapped for a usable spare that no
other lane is taking, else it leaves, and for a resweep it leaves in any case; a ring that is OUT, due or to resweep and carries no data sweeps,
acquires the resonance nearest to its calibrated code, a receive ring one whose tone matches, and locks, or goes to FAULT; a lane that has passed
returns by JOIN or as the spare; a round of an announced gap takes at most four lanes a direction and leaves MIN_LANES. -/
def Obligations.RingsLockAndResweep : Prop :=
  ∀ (s : State) (k lane heater : Nat) (rx sweep : Bool) (tone : Option Nat) (found : List (Nat × Option Nat)) (g : GapWin) (r : List GapWin),
    k < 36 → lane < 9 →
    let l := s.link k
    let x := l.lane lane
    let quiet : Prop := l.ann = [] ∧ l.loop = none ∧ l.loopAsked = none
    let ring (y : Lane) : Nat := if rx then y.rxState else y.txState
    let code (y : Lane) : Nat := if rx then y.rxHeater else y.txHeater
    let due (y : Lane) : Sweep := if rx then y.rxSweep else y.txSweep
    let cal : Nat := if rx then x.rxCal else x.txCal
    let far (h : Nat) : Nat := if h ≤ cal then cal - h else h - cal
    let fits (f : Nat × Option Nat) : Prop := f.1 < 4096 ∧ (rx = true → f.2 = some lane)
    (quiet → lane ∈ l.txMap → (∀ m, l.mig = some m → m.lane = lane → m.confirmed = false) →
      OnLink (.release k { lane := lane, sweep := sweep }) s k { l.modLane lane (fun y => { y with askedOut := some s.now }) with
        ann := [{ op := if !sweep && l.txSpareOk && l.mig.all (fun m => m.lane == lane) then 3 else 1, lane := lane, first := l.slot,
                  effect := (l.slot + 4 + 7) / 8 * 8 }] }) ∧
    (lane ∉ l.txMap → OnLink (.release k { lane := lane, sweep := sweep }) s k l) ∧
    (quiet → LinkWork (.resweepTx k lane) s k fun t => (t.link k).lane lane = { x with txSweep := .fault } ∧
      ∀ n, n ≠ lane → (t.link k).lane n = l.lane n) ∧
    (heater < 4096 → ring x = 3 →
      ((rx = true → tone = some lane) → LinkWork (.lockLoopTick k lane rx heater tone) s k fun t =>
        code ((t.link k).lane lane) = heater ∧ ring ((t.link k).lane lane) = 3 ∧ (rx = true → ((t.link k).lane lane).toneOk = true)) ∧
      (rx = true → tone ≠ some lane → LinkWork (.lockLoopTick k lane rx heater tone) s k fun t =>
        ((t.link k).lane lane).rxState = 4 ∧ ((t.link k).lane lane).toneOk = false ∧ Captured s t Err.wrongLock ∧
        (l.reqs = [] → (t.link k).reqs = if tone = none then [(2, lane, 3), (3, lane, 3)] else [(2, lane, 3)]))) ∧
    (l.trained = true → l.migrating = false → lane ∉ l.map rx → ring x ∉ [0, 1, 2] →
      due x ≠ .none ∨ (if rx then x.rxDue else x.txDue) = true ∨ l.role rx lane = 6 →
      LinkWork (.resweepStart k lane rx) s k fun t => ring ((t.link k).lane lane) = 1 ∧ due ((t.link k).lane lane) ≠ .none ∧
        (due x ≠ .none → due ((t.link k).lane lane) = due x) ∧ (t.link k).map rx = l.map rx ∧
        ∀ n, n ≠ lane → (t.link k).lane n = l.lane n) ∧
    (l.trained = true → ring x = 1 → (∀ f ∈ found, ¬fits f) → LinkWork (.resweepEnd k lane rx found) s k fun t =>
      ring ((t.link k).lane lane) = 4 ∧ Captured s t Err.sweepFailed) ∧
    (l.trained = true → ring x = 1 → (∃ f ∈ found, fits f) → LinkWork (.resweepEnd k lane rx found) s k fun t =>
      ring ((t.link k).lane lane) = 2 ∧ (∃ f ∈ found, fits f ∧ code ((t.link k).lane lane) = f.1) ∧
      ∀ f ∈ found, fits f → far (code ((t.link k).lane lane)) ≤ far f.1) ∧
    (l.trained = true → ring x = 2 → LinkWork (.resweepEnd k lane rx found) s k fun t =>
      ring ((t.link k).lane lane) = 3 ∧ code ((t.link k).lane lane) = code x ∧ due ((t.link k).lane lane) = .none ∧
      (rx = true → x.rxBack = .spare → 9 ≤ l.rxSpare → lane ∉ l.rxMap → (t.link k).rxSpare = lane ∧ (t.link k).role true lane = 2) ∧
      (rx = false → x.stage < 2 → x.askedOut = none → lane ∉ l.txMap →
        (x.txBack = .spare → 9 ≤ l.txSpare → (t.link k).txSpare = lane ∧ (t.link k).role false lane = 2) ∧
        (x.txBack = .join → l.ann = [] →
          (t.link k).ann = [{ op := 2, lane := lane, first := l.slot, effect := (l.slot + 4 + 7) / 8 * 8 }]))) ∧
    (l.gaps = g :: r → g.rounds ≠ 0 → g.start + 2500000 ≤ g.stop → g.start ≤ s.sync.ft.toNat → l.migrating = false →
      LinkWork (.gapRound k) s k fun t =>
        (t.link k).gaps.head? = some { g with start := g.start + 2500000, rounds := g.rounds - 1 } ∧
        ∀ out : List Nat, out.Nodup → (∀ n ∈ out, due ((t.link k).lane n) ≠ due (l.lane n)) →
          out.length ≤ 4 ∧ (∀ n ∈ out, n ∈ l.map rx) ∧ out.length + s.opt.minK ≤ max (l.staying rx) s.opt.minK)

/-- R178, R214, R215, R222 to R227, R229, R230, R240, R243, R244: what a link measures and carries: a lane takes at least the stage of its
relative power, and at −6 dB goes to FAULT; one whose ring is OFF takes none; a lane whose bit error rate passes 10⁻⁵ is to migrate; a slot with a
data lane that does not serve delivers nothing and is reported lost; one that all lanes carry brings the peer's credits; a slot that is sent holds
the chunks in codewords; loss of signal empties the link and brings it DOWN. -/
def Obligations.LinksMeasureAndCarry : Prop :=
  ∀ (s : State) (k n i errors total : Nat) (p : Int) (x : Frame) (q : Pkt), k < 36 → n < 9 →
    let l := s.link k
    let y := l.lane n
    let rs := x.lanes.filter fun r => decide (r.lane < 9)
    let c := ctlOf (wordOfLanes (l.rxMap.map fun n => (laneOf rs n).ctl))
    let inTime : Prop := ∀ a ∈ l.heard, a.op = 4 ∨ x.slot < a.effect
    let received (f : State → Prop) : Prop := ∃ t bs, exec (.frameSlotReceive k x) s = .next t ∧ t.answer = .ok bs ∧ t.mem = s.mem ∧
      t.cores = s.cores ∧ (∀ j, j ≠ k → t.port j = s.port j) ∧ (∀ j, j ≠ k → t.link j = s.link j) ∧ f t
    (s.domainOn (48 + k / 6) = true → (s.opt.engines.get {} (k / 6)).calDone = true →
      ∃ t, exec (.fadeWindow (k / 6) [(k, n, p)]) s = .next t ∧ t.answer = .ok [] ∧ t.mem = s.mem ∧ t.cores = s.cores ∧
        (y.txState ≠ 0 → ((t.link k).lane n).txRel = p ∧
          (p ≤ -512 → 1 ≤ ((t.link k).lane n).stage ∧ (y.stage = 0 → s.opt.err = false → t.opt.errCode = Err.fadeWarning)) ∧
          (p ≤ -768 → 2 ≤ ((t.link k).lane n).stage) ∧
          (p ≤ -1536 → 3 ≤ ((t.link k).lane n).stage ∧ (y.stage < 3 → ((t.link k).lane n).txState = 4))) ∧
        (y.txState = 0 → ((t.link k).lane n).txState = 0 ∧ ((t.link k).lane n).stage = y.stage) ∧
        ∀ j, j / 6 ≠ k / 6 → t.link j = s.link j) ∧
    (l.trained = true → 0 < total → total < 2 ^ 40 → errors ≤ total → LinkWork (.berWindow k [(n, errors, total)]) s k fun t =>
      ((t.link k).lane n).ber = berEst errors total ∧ (∀ j, j ≠ n → (t.link k).lane j = l.lane j) ∧
      (100000 * errors ≤ total → (t.link k).reqs = l.reqs) ∧
      (total < 100000 * errors → l.rxMap.Nodup → l.rxMap[i]? = some n → l.reqs = [] → (t.link k).reqs = [(1, i, 3)])) ∧
    (l.trained = true → inTime → received fun t => (t.link k).peerEnc = x.enc) ∧
    (s.up k = true → inTime → x.enc = l.peerEnc →
      (∃ m ∈ l.rxMap, (l.lane m).rxState ≠ 3 ∨ (l.lane m).toneOk = false ∨ ∀ r ∈ x.lanes, r.lane = m → r.bad = true ∨ 7 < r.off) →
      received fun t => t.answer = .ok [] ∧ (t.link k).freed = l.freed ∧ (t.link k).lost = l.lost ++ [(x.slot % 256, 3)] ∧
        t.port k = s.port k) ∧
    (s.up k = true → inTime → x.enc = l.peerEnc →
      (∀ m ∈ l.rxMap, m < 9 ∧ (l.lane m).rxState = 3 ∧ (l.lane m).toneOk = true ∧
        ∃ r ∈ x.lanes, r.lane = m ∧ r.bad = false ∧ r.off ≤ 7) →
      received fun t => (t.link k).lost = l.lost ∧
        (c.cr0.1 ≠ c.cr1.1 → (t.link k).heardFreed.get 0 c.cr0.1 = c.cr0.2) ∧ (t.link k).heardFreed.get 0 c.cr1.1 = c.cr1.2 ∧
        (x.failed = [] → (t.link k).freed = l.freed ∧ t.fab.drops = s.fab.drops) ∧
        (x.failed ≠ [] → t.fab.drops = s.fab.drops + 1)) ∧
    (s.up k = true → (∀ a ∈ l.ann, l.slot < a.effect) →
      ∃ t bs, exec (.frameSlotSend k) s = .next t ∧ t.answer = .ok bs ∧ (t.link k).slot = l.slot + 1 ∧ t.mem = s.mem ∧ t.cores = s.cores) ∧
    (s.up k = true → (∀ a ∈ l.ann, l.slot < a.effect) → s.encActive k = false → (s.port k).queues = [(0, [{ pkt := q }])] →
      (s.port k).used = [] → q.wire ≤ 64 → q.payload.length = q.body → q.src ≠ s.fab.id →
      ∃ t, exec (.frameSlotSend k) s = .next t ∧
        t.answer = .ok (l.messages (wordBytes [q.word0, q.word1] ++ q.payload ++ List.replicate (48 - q.payload.length) 0)
          (l.control [(0, 1)]).word) ∧
        (t.port k).queues = [] ∧ (t.port k).used.get 0 0 = 1 ∧ (t.link k).slot = l.slot + 1 ∧ t.mem = s.mem ∧ t.cores = s.cores) ∧
    (l.trained = true → ∃ t, exec (.linkSignalLoss k) s = .next t ∧ t.answer = .ok [] ∧ t.linkState k = 0 ∧
      (t.port k).queues = [] ∧ (t.port k).used = [] ∧ (t.port k).inbuf = [] ∧ t.mem = s.mem ∧ t.cores = s.cores ∧
      (∀ j, j ≠ k → t.link j = s.link j) ∧
      (s.up k = true → s.sync.ctrl.enable = true → s.sync.ctrl.root = false → s.sync.ftLink = k → s.sync.ftState ≠ .free →
        (k ≠ s.sync.ctrl.parentLink → s.up s.sync.ctrl.parentLink = true → t.sync.ftLink = s.sync.ctrl.parentLink) ∧
        (k = s.sync.ctrl.parentLink ∨ s.up s.sync.ctrl.parentLink = false →
          (s.sync.ctrl.altEn = false → t.sync.ftState = .holdover) ∧
          (s.sync.ctrl.altEn = true → k ≠ s.sync.ctrl.altLink → t.sync.ftLink = s.sync.ctrl.altLink))))

/-- R221, R238, R245 to R248, R253, R374: links outside service: the rows of start-up calibration one after the other, a dark link that finds
light, discovery against the plan on λ0 or on the spares, roles assigned one by one, and the calibration loopback that two modules arrange. -/
def Obligations.LinksTrainAndLoopBack : Prop :=
  ∀ (s : State) (k t0 d i peer plink errors total : Nat) (rx : Bool) (dbm : List Int) (lit : List Nat) (found : List (Nat × Nat))
    (g : TxHalf) (x : Pkt) (h : RxHalf) (n : Nat) (v : Word) (w : Who) (dc : Disc), k < 36 → i < 9 →
    let l := s.link k
    let e := k / 6
    let ring (y : Lane) : Nat := if rx then y.rxState else y.txState
    let again (y : Lane) : Bool := if rx then y.rxRetest else y.txRetest
    let ofLink : List (Nat × Nat × Nat) := found.map fun f => (k, f)
    let calStep (y : CalStep) (f : State → Prop) : Prop := ∃ t, exec (.opticsCalibration e y lit ofLink) s = .next t ∧ t.answer = .ok [] ∧
      t.mem = s.mem ∧ t.cores = s.cores ∧ (∀ j, j / 6 ≠ e → t.link j = s.link j) ∧ f t
    let sweptTo (t : State) : Prop := (t.link k).role true 0 = 3 ∧ (t.link k).role false 0 = 3 ∧ (t.link k).cal = 3 ∧
      ((l.lane i).rxState = 1 → ((t.link k).lane i).rxState = (if ∃ f ∈ found, f.1 = i then 3 else 4)) ∧
      ((l.lane i).rxState ≠ 1 → ((t.link k).lane i).rxState = (l.lane i).rxState)
    let looped (t : State) (own : Bool) : Prop := (t.link k).loop = some s.now ∧ (t.link k).loopOwn = own ∧
      (t.link k).role false l.txSpare = 4 ∧ (t.link k).role true l.rxSpare = 4
    (s.domainOn (48 + e) = true →
      ((s.opt.engines.get {} e).calDone = false → (∀ j, j / 6 = e → (s.link j).cal = 0) → calStep (.laser dbm) fun t =>
        ((t.opt.engines.get {} e).laserOk = true ↔ ∀ m < 9, 4096 ≤ dbm.getD m 0) ∧
        ((t.link k).lane i).txState = (if dbm.getD i 0 < 4096 then 0 else 1) ∧ ((t.link k).lane i).rxState = 1 ∧
        ((t.link k).lane i).txHeater = 0x800 ∧ (t.link k).cal = 1 ∧ (dbm.getD i 0 < 4096 → Captured s t Err.laserLow)) ∧
      (l.cal = 1 → calStep .tx fun t => (t.link k).cal = 2 ∧
        ((l.lane i).txState = 1 → ((t.link k).lane i).txState = (if ∃ f ∈ found, f.1 = i then 3 else 4) ∧
          ((t.link k).role false i = if ∃ f ∈ found, f.1 = i then 2 else 0)) ∧
        ((l.lane i).txState ≠ 1 → ((t.link k).lane i).txState = (l.lane i).txState)) ∧
      (l.cal = 2 → (k ∈ lit → calStep .rx sweptTo) ∧ (k ∉ lit → calStep .rx fun t => t.link k = l)) ∧
      (l.cal = 4 → calStep .loopback fun t => (t.link k).role rx i = 4 ∧ (t.link k).cal = 5) ∧
      (l.cal = 5 → calStep .bert fun t => (t.link k).role rx i = 5 ∧ (t.link k).cal = 6) ∧
      (l.cal = 6 → ring (l.lane i) ≠ 0 → calStep (.bertResult [(k, i, rx, errors, total)]) fun t =>
        (1000000 * errors ≤ total → ring ((t.link k).lane i) = 3 ∧ again ((t.link k).lane i) = false) ∧
        (total < 1000000 * errors → ring ((t.link k).lane i) = (if again (l.lane i) then 0 else 1) ∧
          (again (l.lane i) = false → again ((t.link k).lane i) = true))) ∧
      (l.cal = 6 → l.settledRings = true → s.rake.valid = false →
        let tx := (List.range 9).filter fun m => (l.lane m).txState == 3
        let rx := (List.range 9).filter fun m => (l.lane m).rxState == 3
        s.opt.minK ≤ tx.length → s.opt.minK ≤ rx.length → calStep .finish fun t => (t.opt.engines.get {} e).calDone = true ∧
          (t.link k).trained = true ∧ (t.link k).txMap = tx.take 8 ∧ (t.link k).rxMap = rx.take 8 ∧
          (t.link k).txSpare = tx.getD 8 15 ∧ (t.link k).rxSpare = rx.getD 8 15 ∧
          ∀ m ∈ tx.take 8, (t.link k).role false m = 1) ∧
      (l.cal = 2 → l.rxTried + 1000000000 ≤ s.now →
        OnLink (.rxSweepRetry k none) s k { l with rxTried := s.now } ∧
        LinkWork (.rxSweepRetry k (some found)) s k sweptTo)) ∧
    (l.disc = some dc → (s.up k = true → dc.since + 200000 ≤ s.now) → peer < 2 ^ 14 → plink < 36 →
      LinkWork (.discoveryDone k peer plink) s k fun t => (t.link k).disc = none ∧
        (∀ m r, dc.tx = some (m, r) → (t.link k).role false m = r) ∧ (∀ m r, dc.rx = some (m, r) → (t.link k).role true m = r) ∧
        (dc.rx = none → (t.link k).peerId = l.peerId ∧ (t.link k).peerLink = l.peerLink ∧ (t.link k).mismatch = l.mismatch) ∧
        (dc.rx ≠ none → (t.link k).peerId = peer ∧ (t.link k).peerLink = plink ∧
          (s.rake.valid = true → (s.rake.links.get {} k).used = true →
            ((t.link k).mismatch = decide ((peer, plink) ≠ ((s.rake.links.get {} k).peer, (s.rake.links.get {} k).link))) ∧
            (l.mismatch = false → (t.link k).mismatch = true → Captured s t Err.peerMismatch)))) ∧
    (l.discRetry = some t0 → t0 ≤ s.now → l.mig = none → l.loop = none →
      (s.up k = true → l.txSpareOk = true → l.rxSpareOk = true → LinkWork (.discoveryRetry k) s k fun t =>
        (t.link k).discRetry = none ∧ (t.link k).role false l.txSpare = 3 ∧ (t.link k).role true l.rxSpare = 3 ∧
        ∃ b, (t.link k).disc = some b ∧ b.since = s.now) ∧
      (s.up k = false → l.trained = true → LinkWork (.discoveryRetry k) s k fun t =>
        (t.link k).discRetry = none ∧ (t.link k).role false 0 = 3 ∧ (t.link k).role true 0 = 3 ∧
        ∃ b, (t.link k).disc = some b ∧ b.since = s.now)) ∧
    (s.up k = false → (∀ i < 9, roleOf v.toNat i false ≠ 7 ∧ roleOf v.toNat i true ≠ 7 ∧
        (roleOf v.toNat i false ≠ 0 → (l.lane i).txState ≠ 0) ∧ (roleOf v.toNat i true ≠ 0 → (l.lane i).rxState ≠ 0)) →
      LinkWork (.lnkAssignWrite dispatch k v) s k fun t => ∀ i < 9, ∀ rx, (t.link k).role rx i = roleOf v.toNat i rx) ∧
    (s.up k = true → ∃ t, exec (.lnkAssignWrite dispatch k v) s = .next t ∧ t.answer = .refused Err.laneAssign ∧
      t.opt.links = s.opt.links ∧ Captured s t Err.laneAssign ∧ (s.opt.err = false → t.opt.faultLink = k)) ∧
    (w.remote = true ∨ (w.unit ≠ unitDispatch ∧ w.unit ≠ unitHearth) → ∃ t, exec (.lnkAssignWrite w k v) s = .next t ∧
      t.answer = .refused Err.optWrite ∧ t.opt.links = s.opt.links ∧ Captured s t Err.optWrite ∧
      (s.opt.err = false → t.opt.faultLink = k)) ∧
    (s.loopFree k = true → l.peerId = d → CanSend s d g →
      ∀ c, (c = Instr.calLoopbackTimer k ∧ s.opt.spareCal ≠ 0 ∧ l.loopLast + 1000000000 * s.opt.spareCal ≤ s.now ∧ l.loopAsked = none) ∨
          (c = Instr.loopbackRetry k ∧ l.loopRetry = some t0 ∧ t0 ≤ s.now) →
        LinkWork c s k fun t => (t.link k).loopAsked = some s.now ∧ (t.link k).loopRetry = none ∧
          ∃ o, SentTo t d g o ∧ o.pkt.ty = tyMgmt ∧ o.pkt.aux = 1 ∧ o.pkt.f 0 1 = k % 256 ∧ o.pkt.f 1 1 = l.peerLink % 256 ∧
            o.pkt.f 12 4 = 200000) ∧
    (Arrives s x h n → x.ty = tyMgmt → x.f 1 1 = k →
      (x.aux = 1 → calForm x = true → x.src = d → CanSend s d g →
        LinkWork (.calReq x) s k fun t => (s.loopFree k = true → looped t false) ∧
          (s.loopFree k = false → (t.link k).loop = l.loop) ∧
          ∃ o, SentTo t d g o ∧ o.pkt.ty = tyMgmt ∧ o.pkt.aux = 2 ∧ o.pkt.f 1 1 = x.f 0 1 ∧ o.pkt.f 2 2 = (s.loopFree k).toNat) ∧
      (x.aux = 2 → calForm x = true → LinkWork (.calAck x) s k fun t =>
        (l.loopAsked = none → t.link k = l) ∧
        (l.loopAsked ≠ none → x.f 2 2 = 1 → s.loopFree k = true → looped t true) ∧
        (l.loopAsked ≠ none → x.f 2 2 = 0 → (t.link k).loop = l.loop ∧ (t.link k).loopAsked = none ∧
          (t.link k).loopRetry = some (s.now + 10000000000))) ∧
      (calForm x = false → ∀ c, (c, x.aux) ∈ [(Instr.calReq x, 1), (.calAck x, 2)] →
        ∃ t, exec c s = .next t ∧ t.answer = .refused 0x0D0D ∧ t.opt = s.opt)) ∧
    (l.loop = some t0 → t0 + 200000 ≤ s.now → LinkWork (.calLoopbackEnd k) s k fun t =>
      (t.link k).loop = none ∧ (t.link k).role false l.txSpare = 2 ∧ (t.link k).role true l.rxSpare = 2)

/-- R16, R310, R311: a stream fetches its command of 64 bytes at its position and runs it once its tag is at most one above the committed epoch
number; a completed one moves the position on, and the last of a list ends its SUBMIT with the number executed and the fabric time; a list that held provisional
commands is kept for a squash (R118). One out of form halts the partition. -/
def Obligations.StreamsFetchAndAdvance : Prop :=
  ∀ (s : State) (p k : Nat) (l : SubList) (rest : List SubList) (bs : List Byte), p < 8 → k < 64 → (s.part p).valid = true →
    (s.part p).halted = false → (s.part p).haltReq = none → (s.stream p k).lists = l :: rest → (s.stream p k).started = true →
    (s.stream p k).redo = none → Fetches s p .read (s.stream p k).pos 64 bs →
    let x := Cmd.ofBytes bs
    let c := (s.part p).epoch
    let same (t : State) : Prop := t.mem = s.mem ∧ t.cores = s.cores ∧ t.sync = s.sync ∧ t.rake = s.rake ∧
      ∀ q j, (q, j) ≠ (p, k) → t.stream q j = s.stream q j
    (x.op = 0 → x.ok (2 ^ (s.part p).log2) c = true → x.tag.toNat ≤ c.toNat + 1 → (s.part p).squash ≠ some x.tag →
      ∃ t, exec (.nop p k) s = .next t ∧ t.answer = .ok [] ∧ same t ∧
        ((s.stream p k).pos + 64 < l.fin → (t.stream p k).pos = (s.stream p k).pos + 64 ∧ t.host = s.host ∧
          (t.stream p k).lists = { l with executed := l.executed + 1 } :: rest) ∧
        (l.fin ≤ (s.stream p k).pos + 64 → (t.stream p k).lists = rest ∧
          ((s.stream p k).marks = [] → x.tag.toNat ≤ c.toNat → (t.stream p k).past = (s.stream p k).past) ∧
          (c.toNat < x.tag.toNat → (t.stream p k).past = (s.stream p k).past ++ [{ l with executed := l.executed + 1, again := true }]) ∧
          (l.again = true → t.host = s.host) ∧ (l.again = false → (s.mbox l.fn l.mbox).state = 1 →
          (t.mbox l.fn l.mbox).state = 2 ∧ (t.mbox l.fn l.mbox).status = 0 ∧
          (t.mbox l.fn l.mbox).doneSeq = (s.mbox l.fn l.mbox).seq ∧
          (t.mbox l.fn l.mbox).bytes.getList 0 0x80 16 = wordBytes [l.executed + 1, s.sync.ft.toNat]))) ∧
    (x.ok (2 ^ (s.part p).log2) c = false → StreamRefused (.nop p k) s p k Err.cmdForm) ∧
    (x.ok (2 ^ (s.part p).log2) c = true → c.toNat + 1 < x.tag.toNat → exec (.nop p k) s = .next { s with answer := .idle })

/-- R101, R112, R161, R255, R260, R311: LAUNCH copies its block into the cores it names and queues the launch; COLL hands a record to the rake, or is refused
with COLL_FORM; WAIT arms a watch in the lowest free slot of the partition's split and completes once it fires; SIGNAL adds; COMMIT waits for the
work of the partition tagged e, then begins the apply pass and leaves the epoch as it is. -/
def Obligations.StreamCommandsAct : Prop :=
  ∀ (s t : State) (p k c : Nat) (x : Cmd) (bs : List Byte), AtCommand s p k x t →
    let prov := Provisional t p x
    let who := dispatchWho p (if prov then some x.tag else none)
    let i := bits (x.word 0) 31 16
    let v := BitVec.ofNat 64 (x.word 2)
    let w : Watch := { cond := 0, view := prov, dest := 0, counter := i, value := v, time := 0, word3 := 0, who := .stream p k,
                       epoch := if prov then some x.tag else none, part := some p }
    (x.op = 1 → (t.stream p k).toQueue = none → c < 32 → (t.part p).first ≤ c → c < (t.part p).first + 2 ^ (t.part p).log2 →
      (∀ j < 2 ^ (t.part p).log2, (x.word 0).testBit (16 + j) = decide ((t.part p).first + j = c)) →
      Fetches t p .fetch (x.word 2) (32 * (x.word 3 + 1)) bs → (t.core c).launches = [] → (t.core c).block = none →
      StreamWork (.launch p k) s t p k fun u => u.mem = t.mem ∧ u.sync = t.sync ∧ (∀ d, d ≠ c → u.core d = t.core d) ∧
        (u.core c).launches = [{ half := 0, arg := BitVec.ofNat 64 (x.word 4), tag := x.tag, addr := x.word 2, bundles := x.word 3 + 1,
                                 stream := k, copied := true }] ∧
        ∀ j < x.word 3 + 1, (u.core c).bundles.get 0 j = BitVec.ofNat 256 (leNat ((bs.drop (32 * j)).take 32))) ∧
    (x.op = 2 → Fetches t p .read (x.word 2) 64 bs →
      (∀ rc, collRecOf bs = some rc → t.collOk rc = true → (t.rake.active ++ t.rake.queue).length < 16 →
        StreamWork (.coll p k) s t p k fun u => u.mem = t.mem ∧ u.cores = t.cores ∧ u.rake.active = t.rake.active ∧
          u.rake.queue = t.rake.queue ++ [{ part := p, stream := k, tag := x.tag, attempt := 0, rc := rc }]) ∧
      (collRecOf bs = none ∨ (∃ rc, collRecOf bs = some rc ∧ t.collOk rc = false) → StreamRefused (.coll p k) s p k Err.collForm)) ∧
    (x.op = 3 → (t.stream p k).wait = none →
      ((t.stream p k).fired = true → StreamWork (.wait p k) s t p k fun u => u.sync = t.sync ∧ u.mem = t.mem ∧ u.cores = t.cores) ∧
      ((t.stream p k).fired = false → ∀ slot, t.sync.freeSlot (t.sync.splits.get {} p).first (t.sync.splits.get {} p).count = some slot →
        t.sync.permit who .watch i = none →
        (t.sync.holds w = none → ∃ u, exec (.wait p k) s = .next u ∧ u.answer = .held ∧ (u.stream p k).wait = some slot ∧
          u.sync = { t.sync with watches := t.sync.watches.set none slot (some w) } ∧ u.mem = t.mem ∧ u.cores = t.cores) ∧
        (t.sync.holds w ≠ none → StreamWork (.wait p k) s t p k fun u => u.sync = t.sync ∧ u.mem = t.mem ∧ u.cores = t.cores))) ∧
    (x.op = 4 →
      ((prov = true → (t.sync.group i).epoch = true) → t.sync.permit who .add i = none → t.sync.barrierOf i = none → t.sync.unwatched i →
        StreamWork (.signal p k) s t p k fun u => u.mem = t.mem ∧ u.cores = t.cores ∧
          ∀ view j, u.sync.val view j = if j = i ∧ (view = true ∨ prov = false) then t.sync.val view j + v else t.sync.val view j) ∧
      ∀ code, t.sync.permit who .add i = some code → StreamRefused (.signal p k) s p k code) ∧
    (x.op = 5 → (t.part p).commit = none → (t.part p).squash ≠ some v → (t.part p).snap.drain = none →
      (t.epochWork p v = true → exec (.commit p k) s = .next { s with answer := .idle }) ∧
      (t.epochWork p v = false → ∃ u, exec (.commit p k) s = .next u ∧ u.answer = .ok [] ∧
        (u.part p).commit = some { stream := k, epoch := v } ∧ (u.part p).epoch = (t.part p).epoch ∧ u.stream p k = t.stream p k ∧
        (u.part p).mem = (t.part p).mem ∧ u.mem = t.mem ∧ u.cores = t.cores ∧ u.sync = t.sync))

/-- R131, R164, R237, R267, R269, R309, R311: phase records open and close, a BEGIN of an open one or an END of one that is not is PHASE_ORDER and no fault; hints of
demand, gaps and memory use are taken, one of a reserved kind is refused with HINT_FORM; REGION_SET and WATCH_SET write their entries, and a
list of a virtual function may hold neither. -/
def Obligations.PhasesHintsAndEntries : Prop :=
  ∀ (s t : State) (p k slot : Nat) (x : Cmd) (bs : List Byte), AtCommand s p k x t → (t.part p).traceSize = 0 →
    let i := bits (x.word 0) 23 16
    let kind := bits (x.word 0) 19 16
    let tier := bits (x.word 0) 23 20
    let ph := (t.part p).phases.get {} i
    let word (j : Nat) : Word := BitVec.ofNat 64 (leNat ((bs.drop (8 * j)).take 8))
    let order (u : State) : Prop := t.rake.err = false → u.rake.err = true ∧ u.rake.errCode = Err.phaseOrder
    let others (u : State) : Prop := ∀ j, j ≠ i → (u.part p).phases.get {} j = (t.part p).phases.get {} j
    (x.op = 6 → StreamWork (.phaseBegin p k) s t p k fun u => u.mem = t.mem ∧ u.cores = t.cores ∧ others u ∧
      (u.part p).phases.get {} i = { ph with openAt := t.sync.ft, isOpen := true } ∧ (ph.isOpen = true → order u)) ∧
    (x.op = 7 → StreamWork (.phaseEnd p k) s t p k fun u => u.mem = t.mem ∧ u.cores = t.cores ∧ others u ∧
      (ph.isOpen = true → ∃ q, (u.part p).phases.get {} i = q ∧ q.isOpen = false ∧ q.count = ph.count + 1 ∧
        q.last = t.sync.ft - ph.openAt ∧ q.total = ph.total + q.last ∧ q.min.toNat = min ph.min.toNat q.last.toNat ∧
        q.max.toNat = max ph.max.toNat q.last.toNat) ∧
      (ph.isOpen = false → (u.part p).phases.get {} i = ph ∧ order u)) ∧
    (x.op = 8 → kind = 0 → StreamWork (.heavy p k) s t p k fun u => u.mem = t.mem ∧ u.cores = t.cores ∧
      u.pwr.hints = t.pwr.hints ++ [(p, tier, x.word 2, x.word 3, none)]) ∧
    (x.op = 8 → kind = 1 → StreamWork (.gap p k) s t p k fun u => u.mem = t.mem ∧ u.cores = t.cores ∧ ∀ n < 36,
      let a := max (x.word 2) t.sync.ft.toNat
      let z := x.word 2 + x.word 3
      ((x.word 4).testBit n = true → a + 2500000 ≤ z →
        (u.link n).gaps = (t.link n).gaps ++ [{ start := a, stop := z, rounds := (z - a) / 2500000 }]) ∧
      ((x.word 4).testBit n = true → z < a + 2500000 → u.link n = t.link n) ∧
      ((x.word 4).testBit n = false → u.link n = t.link n)) ∧
    (x.op = 8 → kind = 2 → tier < 3 → StreamWork (.memUse p k) s t p k fun u => u.mem = t.mem ∧ u.cores = t.cores ∧
      (u.part p).memCur.get 0 tier = BitVec.ofNat 64 (x.word 4) ∧
      ((u.part p).memPeak.get 0 tier).toNat = max ((t.part p).memPeak.get 0 tier).toNat (BitVec.ofNat 64 (x.word 4)).toNat) ∧
    (x.op = 8 → 2 < kind → ∀ j ∈ [Instr.heavy p k, .gap p k, .memUse p k], StreamRefused j s p k Err.hintForm) ∧
    (x.op = 9 → t.virtualList p k = false → Fetches t p .read (x.word 2) 32 bs → ∀ v,
      t.regionPut p i (word 0).toNat (word 1).toNat (word 2).toNat (word 3).toNat = .ok v →
      StreamWork (.streamRegionSet p k) s t p k fun u =>
        (u.part p).mem.regions.get {} i = { regionOf (word 0).toNat (word 1).toNat (word 2).toNat with
          side := ((u.part p).mem.regions.get {} i).side } ∧ u.cores = t.cores ∧ u.sync = t.sync) ∧
    (x.op = 10 → t.virtualList p k = false → Fetches t p .read (x.word 2) 32 bs → slot = bits (x.word 0) 27 16 → (word 0).toNat / 4 % 2 = 1 →
      t.sync.owns (dispatchWho p none) slot = true → t.sync.watchBad slot (word 0) (word 3) = false →
      t.sync.watches.get none slot = none → t.sync.permit (dispatchWho p none) .watch ((word 0).toNat / 64 % 65536) = none →
      t.sync.holds (mkWatch (word 0) (word 1) (word 2) (word 3) (.part p) none (some p)) = none →
      StreamWork (.streamWatchSet p k) s t p k fun u => u.mem = t.mem ∧ u.cores = t.cores ∧ u.sync = { t.sync with
        watches := t.sync.watches.set none slot (some (mkWatch (word 0) (word 1) (word 2) (word 3) (.part p) none (some p))) }) ∧
    (x.op = 9 ∨ x.op = 10 → t.virtualList p k = true →
      StreamRefused (if x.op = 9 then .streamRegionSet p k else .streamWatchSet p k) s p k Err.notPermitted)

/-- R102, R109, R118, R138, R169, R266: a descriptor whose writes are all performed leaves its mover and adds INC, and RINC at the other module; a
refused addition stops it instead. A squash that is complete restores the provisional counters, drops the deferred records and the
collectives of its epoch and rewinds the streams; an apply pass of the epoch is taken back before (log entry 101). -/
def Obligations.DescriptorsAndSquashesComplete : Prop :=
  ∀ (s : State) (c m p : Nat) (a : Active) (g : TxHalf) (e : Word), c < 32 → m < 2 →
    let prov := s.moveProv c a
    let who : SWho := { unit := 2 * c + m, part := s.partOfCore c, prov := prov.isSome }
    let v := BitVec.ofNat 64 a.d.inc
    let left (t : State) : Prop := (t.mover c m).active = (s.mover c m).active.filter (fun b => b.seq != a.seq) ∧
      (t.mover c m).done = (s.mover c m).done + 1 ∧ t.mem = s.mem ∧ t.parts = s.parts
    (s.activeOf c m a.seq = some a → s.descDone c m a = true →
      (a.d.inc = 0 → a.d.rcEn = false → ∃ t, exec (.descriptorComplete c m a.seq) s = .next t ∧ t.answer = .ok [] ∧ left t ∧
        t.sync = s.sync ∧ t.fab = s.fab) ∧
      (a.d.inc ≠ 0 → a.d.rcEn = false → (prov.isSome = true → (s.sync.group a.d.counter).epoch = true) →
        s.sync.permit who .add a.d.counter = none → s.sync.barrierOf a.d.counter = none → s.sync.unwatched a.d.counter →
        ∃ t, exec (.descriptorComplete c m a.seq) s = .next t ∧ t.answer = .ok [] ∧ left t ∧ t.fab = s.fab ∧
          ∀ view j, t.sync.val view j = if j = a.d.counter ∧ (view = true ∨ prov.isSome = false) then s.sync.val view j + v
            else s.sync.val view j) ∧
      (a.d.inc = 0 → a.d.rcEn = true → CanSend s a.d.dstId g →
        ∃ t o, exec (.descriptorComplete c m a.seq) s = .next t ∧ t.answer = .ok [] ∧ left t ∧ t.sync = s.sync ∧ SentTo t a.d.dstId g o ∧
          o.pkt.ty = tySync ∧ o.pkt.f 0 1 = 0x01 ∧ o.pkt.f 2 2 = a.d.rcounter % 65536 ∧ o.pkt.f 4 4 = a.d.rinc % 2 ^ 32 ∧
          o.who = .mover c m a.seq) ∧
      (a.d.inc ≠ 0 → a.stopped = false → s.partOfCore c = some p → (s.part p).halted = false → (s.part p).haltReq = none →
        ∀ code, s.sync.permit who .add a.d.counter = some code →
        ∃ t, exec (.descriptorComplete c m a.seq) s = .next t ∧ t.answer = .refused code ∧ t.sync.counters = s.sync.counters ∧
          (t.mover c m).err = true ∧ (t.mover c m).done = (s.mover c m).done ∧ (t.part p).haltReq = some (code, none))) ∧
    (p < 8 → (s.part p).squash = some e → (∀ cm, (s.part p).commit = some cm → cm.epoch = e) → (s.part p).commit ≠ none →
      s.sync.watches = [] → s.rake.heldData = [] → ∃ t, exec (.squashComplete p) s = .next t ∧ (t.part p).commit = none ∧
        (t.part p).epoch = (s.part p).epoch ∧ ∀ d ∈ (t.part p).mem.deferLog, d.epoch = e → d.applied = false) ∧
    (p < 8 → (s.part p).squash = some e → (∀ cm, (s.part p).commit = some cm → cm.epoch ≠ e) →
      (s.squashQuiet p = false → exec (.squashComplete p) s = .next { s with answer := .idle }) ∧
      (s.squashQuiet p = true → s.rake.heldData = [] → s.sync.watches = [] →
        ∃ t, exec (.squashComplete p) s = .next t ∧ t.answer = .ok [] ∧ (t.part p).squash = none ∧ (t.part p).epoch = (s.part p).epoch ∧
          t.mem = s.mem ∧ t.sync.counters = s.sync.counters ∧
          (∀ i, t.sync.provs.get 0 i = if inEpochGroup s.sync p i then s.sync.counters.get 0 i else s.sync.provs.get 0 i) ∧
          (t.part p).mem.deferLog = (s.part p).mem.deferLog.filter (fun r => !(r.prov && r.epoch == e)) ∧
          (∀ x ∈ t.rake.active ++ t.rake.queue, ¬ (x.part = p ∧ x.tag = e)) ∧
          (∀ x ∈ s.rake.active, ¬ (x.part = p ∧ x.tag = e) → x ∈ t.rake.active) ∧
          (∀ k, t.stream p k = (s.stream p k).rewind e) ∧ ∀ q, q ≠ p → t.part q = s.part q))

/-- R255, R256, R258, R259, R263, R266: a collective starts once a place is free, with its own contribution read; a partial sum that reaches the owner of
its shard is added in FP32 with one rounding and written; data of a collective not started here, or of a newer attempt, is kept, that of an older
attempt dropped and counted; a deadline passed makes a node send without the children that are missing; one that completes writes its record
and, where it was refused, halts its partition; where its record waits, so does its addition. -/
def Obligations.CollectivesRun : Prop :=
  ∀ (s : State) (p i a : Nat) (x c : Coll) (bs : List Byte) (q : Pkt) (h : RxHalf) (n : Nat) (g : Hit) (v : Nat × Nat × Nat),
    let e := s.entry c.rc.coll
    let r := s.rakeReq c .write (c.rc.dst + 4 * (q.collFirst - e.pos * c.rc.count)) 4 (leBytes (addVals [leNat q.collBody] [a]).1.head! 4)
    let w := s.rakeReq c .write c.rc.comp 64 (c.record s.sync.ft)
    let took (t : State) : Prop := t.cores = s.cores ∧ t.sync = s.sync ∧ t.parts = s.parts
    (s.rake.queue.find? (fun y => y.part == p) = some x → s.coll x.key = none → x.rc.deadline = 0 →
      (s.rake.active.length < 16 → (s.rakeRead x (s.ownSpan x).1 (s.ownSpan x).2).1 = .ok bs → s.readsReady x (s.ownVals x bs) = true →
        ∃ t y, exec (.collStart p) s = .next t ∧ t.answer = .ok [] ∧ t.coll x.key = some y ∧ y.own = s.ownVals x bs ∧
          y.tStart = s.sync.ft ∧ y.attempt = (s.part x.part).attempt ∧
          t.rake.queue = s.rake.queue.eraseP fun z => z.key == x.key) ∧
      (64 ≤ s.rake.active.length → exec (.collStart p) s = .next { s with answer := .idle })) ∧
    (Arrives s q h n → q.ty = tyCollData →
      (s.rake.valid = false → ∃ t, exec (.collData q) s = .next t ∧ t.answer = .refused Err.collForm ∧ took t ∧ t.mem = s.mem ∧
        t.rake.active = s.rake.active ∧ (s.rake.err = false → t.rake.errCode = Err.collForm)) ∧
      (s.rake.valid = true → (s.entry q.collEntry).members ≠ 0 → (s.entry q.collEntry).algo ≠ 2 →
        (∀ y ∈ s.rake.active, ¬ (y.rc.coll = q.collEntry ∧ y.rc.inst = q.collInst)) →
        ∃ t, exec (.collData q) s = .next t ∧ t.answer = .ok [] ∧ took t ∧ t.mem = s.mem ∧
          t.rake = { s.rake with heldData := s.rake.heldData ++ [q] }) ∧
      (s.rake.valid = true → s.rake.active = [c] → c.rc.coll = q.collEntry → c.rc.inst = q.collInst → e.members ≠ 0 →
        (s.collProv c = true → q.collAttempt < c.attempt % 16 →
          ∃ t, exec (.collData q) s = .next t ∧ t.answer = .ok [] ∧ took t ∧ t.mem = s.mem ∧
            t.rake = { s.rake with stale := s.rake.stale + 1 }) ∧
        (s.collProv c = true → c.attempt % 16 < q.collAttempt →
          ∃ t, exec (.collData q) s = .next t ∧ t.answer = .ok [] ∧ took t ∧ t.mem = s.mem ∧
            t.rake = { s.rake with heldData := s.rake.heldData ++ [q] }) ∧
        (s.collProv c = false → e.op = 0 → e.algo = 0 → e.normEn = false → c.rc.dstTy = Num.Ty.fp32.code → q.collKind = 0 → q.collWire = 0 →
          q.collN = 1 → q.payload.length = 20 → 0 < c.rc.count → q.collFirst / c.rc.count = e.pos → c.own[q.collFirst]? = some a →
          r.addr % 4 = 0 → Admitted s r g → g.reg.cache = false → (s.part g.part).snap.drain = none →
          ∃ t, exec (.collData q) s = .next t ∧ t.answer = .ok [] ∧ took t ∧ t.rake.elems = s.rake.elems + 1 ∧
            Stored s.mem t.mem (g.target r) (leBytes (Num.fmtFP32.convert Num.Mode.ieee 0
              ((Num.f32 (leNat q.collBody)).add (Num.f32 a))).1 4)))) ∧
    (s.coll c.key = some c → c.rc.deadline ≠ 0 → e.algo = 2 → (e.trees c.rc.count)[i]? = some v → c.reduced.contains i = false →
      c.limit e v.1 < s.sync.ft.toNat → 0 < e.members →
      (e.late ≠ 1 ∨ ((e.trees c.rc.count).length = 1 ∧ s.lateReady c e v.2.1 v.2.2 = true)) →
      ∃ t y, exec (.collDeadline c.part c.rc.coll c.rc.inst) s = .next t ∧ t.answer = .ok [] ∧ t.coll c.key = some y ∧ i ∈ y.reduced ∧
        (∀ b ∈ e.children (e.label v.1), c.partialOf (e.place v.1 b) v.2.1 v.2.2 = none → e.place v.1 b ∈ y.missing) ∧
        (e.late ≠ 1 → (∀ u ∈ e.trees c.rc.count, e.label u.1 ≠ 0) → took t ∧ t.mem = s.mem)) ∧
    (s.coll c.key = some c → s.collReady c.key c = true → c.ended = false → c.rc.deadline = 0 → c.rc.comp % 64 = 0 →
      (s.memReq w).1 = .held →
      ∃ t y, exec (.collComplete c.part c.rc.coll c.rc.inst) s = .next t ∧ t.answer = .held ∧ t.coll c.key = some y ∧ y.ended = true ∧
        t.sync.counters = s.sync.counters ∧ t.mem.bytes = s.mem.bytes) ∧
    (s.coll c.key = some c → s.collReady c.key c = true → c.ended = false → s.rakeQuiet = true → c.rc.deadline = 0 → c.slot = none →
      c.rc.comp % 64 = 0 → Admitted s w g → g.reg.cache = false → (s.part g.part).snap.drain = none →
      ∃ t, exec (.collComplete c.part c.rc.coll c.rc.inst) s = .next t ∧ t.answer = .ok [] ∧ t.coll c.key = none ∧ t.cores = s.cores ∧
        Stored s.mem t.mem (g.target w) (c.record s.sync.ft) ∧
        (c.status = 0 → c.rc.inc = 0 → t.parts = s.parts ∧ t.sync.counters = s.sync.counters) ∧
        (c.status ≠ 0 → (s.part c.part).halted = false → (s.part c.part).haltReq = none →
          (t.part c.part).haltReq = some (c.status, some c.stream)))

/-- R298 to R306, R309: the write of SEQ that arms a mailbox lets its command run with the fields that its words hold, or refuses it: an opcode
without a row, one before HELLO, one that the service state or the function does not allow, one whose feature is not agreed, one of the wrong
length. What is written to a mailbox that runs is discarded and counted; the SEQ of the last command arms nothing. -/
def Obligations.MailboxesTakeCommands : Prop :=
  ∀ (s : State) (f m seq off : Nat), f < 9 → m < 64 → seq < 2 ^ 16 → off < 4096 → s.fnOn f = true →
    let x := s.mbox f m
    let op := x.num 4 2
    let len := x.num 0xA 2
    let irq := bit (x.num 6 2) 0
    let args (n : Nat) : Nat := if n < len / 8 ∧ n < 496 then x.num (0x80 + 8 * n) 8 else 0
    let i : Instr := .mailboxArm f m seq
    let counted : State := s.modFn f fun y => { y with discards := y.discards + 1 }
    let others (t : State) : Prop := ∀ n, n ≠ 64 * f + m → t.host.mboxes.get {} n = s.host.mboxes.get {} n
    let refused (c : Code) (d : Nat) : Prop := ∃ t, exec i s = .next t ∧ t.answer = .refused c ∧ (t.mbox f m).state = 2 ∧
      (t.mbox f m).status = c ∧ (t.mbox f m).doneSeq = seq ∧ (t.mbox f m).detail = BitVec.ofNat 64 d ∧ (t.mbox f m).rlen = 0 ∧
      Kept s t ∧ others t
    let free : Prop := x.state ≠ 1 ∧ x.armed = none
    let fresh : Prop := free ∧ seq ≠ x.doneSeq ∧ s.rst.restarting = false
    let known : Prop := fresh ∧ op ∈ mbxOpcodes ∧ (op = 1 ∨ (s.fn f).session = true)
    (¬ free → Makes i s counted) ∧
    (free → seq = x.doneSeq → Makes i s s) ∧
    (free → seq ≠ x.doneSeq → s.rst.restarting = true → ∃ t, exec i s = .next t ∧ t.answer = .ok [] ∧ (t.mbox f m).armed = some seq ∧
      (t.mbox f m).state = x.state ∧ Kept s t ∧ others t) ∧
    (fresh → op ∉ mbxOpcodes → refused 0x0A01 0) ∧
    (fresh → op ∈ mbxOpcodes → op ≠ 1 → (s.fn f).session = false → refused 0x0A03 0) ∧
    (known → 0x14 ≤ op → s.service ≠ 1 → refused 0x0A06 0) ∧
    (known → f ≠ 0 → s.service = 1 → op ∉ [0x01, 0x02, 0x03, 0x10, 0x22, 0x25, 0x40, 0x41] → refused 0x0A05 0) ∧
    (known → f ≠ 0 → s.service = 1 → op ∈ [0x03, 0x22, 0x25, 0x40, 0x41] → (s.fn f).bound = none → refused 0x0A05 0) ∧
    (known → f = 0 → s.service = 1 → op ≠ 0x01 → op ≠ 0x10 → (s.fn f).agreed.getLsbD 0 = false → refused 0x0A04 0) ∧
    (known → f = 0 → s.service = 1 → op ≠ 0x01 → op ≠ 0x10 → (∀ b ∈ s.needs f op irq args, (s.fn f).agreed.getLsbD b = true) →
      len ≠ 8 * (argForm op (bits (args 0) 23 16)).1 → refused 0x0A02 0x00A) ∧
    (fresh → s.mbxRefusal f op len irq args = none → ∃ t, exec i s = .next t ∧ t.answer = .ok [] ∧ (t.mbox f m).state = 1 ∧
      (t.mbox f m).begun = false ∧ (t.mbox f m).seq = seq ∧ (t.mbox f m).op = op ∧ (t.mbox f m).irq = irq ∧
      (t.mbox f m).vector = x.num 8 2 % 2048 ∧ (∀ n, (t.mbox f m).arg n = args n) ∧ Kept s t ∧ others t) ∧
    ((¬ free ∨ off < 4 ∨ (0x10 ≤ off ∧ off < 0x80)) → Makes (.mailboxDiscard f m off) s counted)

/-- R298, R303, R314, R315, R325, R353, R365: HELLO opens a session with the features that both sides have; NOTIFY_WAIT takes the oldest
notifications of its mailbox, or waits until some come or its time is over; BAR2_MAP places the window, at a multiple of its size; LOG_READ
answers with log records from an index on; BANK_CLEAR leaves banked mode behind; SET_CAP applies a cap within 700 W to 2,200 W. -/
def Obligations.MailboxServices : Prop :=
  ∀ (s : State) (f m : Nat) (x : Mbox),
    let w := x.arg 0
    let agreed := wide x.arg &&& s.host.offered
    let notes := (s.fn f).notes.filter fun r => r.mbox == m
    let n := min notes.length (w / 2 ^ 32 % 256)
    let recs := ((s.mgmt.flash ++ s.mgmt.queue).filter fun r => decide (max w s.mgmt.logOldest ≤ r.index)).take (x.arg 1)
    let cap := if w < 700 then 700 else if 2200 < w then 2200 else w
    (InMailbox s f m 0x01 x → MailboxMakes (.hello f m) s f m x (leBytes agreed.toNat 32 ++ wordBytes [1 + f * 2 ^ 8]) (s.modFn f fun y =>
      { y with session := true, agreed := agreed, evVector := bits (x.arg 4) 10 0, evEn := bit (x.arg 4) 11 })) ∧
    (InMailbox s f m 0x02 x → notes = [] → ∃ t, exec (.notifyWait f m) s = .next t ∧ t.answer = .ok [] ∧ Begun t f m ∧
      OnlyMailbox t s f m) ∧
    (InMailbox s f m 0x02 x → notes ≠ [] → ∃ t, exec (.notifyWait f m) s = .next t ∧ t.answer = .ok [] ∧
      Ended t f m x 0 0 (wordBytes [n] ++ (notes.take n).flatMap NoteRec.bytes) ∧
      (t.fn f).notes = (s.fn f).notes.filter (fun r => r.mbox != m) ++ notes.drop n ∧ Kept s t) ∧
    (Waiting s f m 0x02 x → x.since + 1000 * bits w 31 0 ≤ s.now → MailboxMakes (.notifyTimeout f m) s f m x (wordBytes [0]) s) ∧
    (InMailbox s f m 0x03 x →
      (w % 2 ^ (30 + (s.fn f).bar2Size) = 0 → MailboxMakes (.bar2Map f m) s f m x [] (s.modFn f fun y => { y with bar2Base := w })) ∧
      (w % 2 ^ (30 + (s.fn f).bar2Size) ≠ 0 → MailboxRefused (.bar2Map f m) s f m x 0x0A02 0x080 fun t =>
        (t.fn f).bar2Base = (s.fn f).bar2Base ∧ Kept s t)) ∧
    (InMailbox s f m 0x11 x → MailboxMakes (.logRead f m) s f m x (wordBytes [(recs.getLast?.map fun r => r.index + 1).getD w] ++
      recs.flatMap LogRec.bytes) s) ∧
    (InMailbox s f m 0x12 x → MailboxMakes (.bankClear f m) s f m x [] { s with rst := { s.rst with failCount := 0, banked := false } }) ∧
    (InMailbox s f m 0x14 x →
      (cap = w → MailboxOk (.setCap f m) s f m x (wordBytes [w]) fun t => t.pwr.cap = w ∧ t.pwr.level = s.pwr.level ∧
        t.mem = s.mem ∧ t.cores = s.cores) ∧
      (cap ≠ w → MailboxRefused (.setCap f m) s f m x 0x0B01 cap fun t => t.pwr.cap = cap ∧ t.pwr.level = s.pwr.level ∧
        t.mem = s.mem ∧ t.cores = s.cores))

/-- R131, R132, R164, R166, R197, R207, R208, R211, R245: the tables that the host sets by mailbox: a region entry, refused with REGION_LOAD where a
rule of its form does not hold; a watch entry; route and multicast entries, from FIRST on; the fence of a module, set or cleared; the
contexts of a module reset; the lanes of a link that is not up. -/
def Obligations.HostTablesChange : Prop :=
  ∀ (s : State) (f m : Nat) (x : Mbox),
    let a0 := x.arg 0
    let p := a0 % 8
    let i := bits a0 15 8
    let g := regionOf (x.arg 1) (x.arg 2) (x.arg 3)
    let w (n : Nat) : Word := BitVec.ofNat 64 (x.arg n)
    let first := a0
    let n := bits a0 23 16
    let entry (j : Nat) : BitVec 128 := BitVec.ofNat 128 (x.arg (2 + 2 * j) + x.arg (3 + 2 * j) * 2 ^ 64)
    let fits : Prop := regionRsvd (x.arg 1) (x.arg 2) (x.arg 3) (x.arg 4) = false ∧ (g.valid = true → s.regionOk p i g = true)
    let routeFits (d : Nat) (v : BitVec 128) : Prop := v.toNat < 2 ^ 111 ∧ ((routeOf v).here = true → d = s.fab.id ∧ (routeOf v).primary = 0)
    let leaves (v : BitVec 128) : Prop := ∀ k < 36, (groupEntryOf v).leaf.getLsbD k = true → (groupEntryOf v).mask.getLsbD k = true
    let sameFab (t : State) : Prop := { t.fab with routes := s.fab.routes, groups := s.fab.groups } = s.fab ∧ t.mem = s.mem ∧ t.cores = s.cores ∧
      t.sync = s.sync
    let laneOk : Prop := s.up a0 = false ∧ ∀ l < 9, ∀ rx, roleOf (x.arg 1) l rx ≠ 7 ∧
      (roleOf (x.arg 1) l rx ≠ 0 → (if rx then ((s.link a0).lane l).rxState else ((s.link a0).lane l).txState) ≠ 0)
    (InMailbox s f m 0x24 x →
      (fits → MailboxOk (.regionSet f m) s f m x [] fun t => (∃ b, (t.part p).mem.regions.get {} i = { g with side := b }) ∧
        (∀ j, j ≠ i → (t.part p).mem.regions.get {} j = (s.part p).mem.regions.get {} j) ∧ t.cores = s.cores ∧ t.sync = s.sync) ∧
      (¬ fits → MailboxRefused (.regionSet f m) s f m x Err.regionLoad 0 fun t => (t.part p).mem.regions = (s.part p).mem.regions ∧
        t.mem = s.mem ∧ ((s.part p).mem.err = false → (t.part p).mem.err = true ∧ (t.part p).mem.errCode = Err.regionLoad))) ∧
    (InMailbox s f m 0x25 x → ∀ q, s.sync.splitOwner a0 = some q → a0 < 3584 →
      let k := mkWatch (w 1) (w 2) (w 3) (w 4) (.part q) none (some q)
      ((w 1).getLsbD 2 = true → s.sync.watchBad a0 (w 1) (w 4) = false → s.sync.watches.get none a0 = none →
        (k.cond = 1 ∨ s.sync.permit (dispatchWho q none) .watch k.counter = none) → s.sync.holds k = none →
        MailboxMakes (.watchSet f m) s f m x [] { s with sync := { s.sync with watches := s.sync.watches.set none a0 (some k) } }) ∧
      ((w 1).getLsbD 2 = false → s.sync.watchBad a0 (w 1) (w 4) = false →
        MailboxMakes (.watchSet f m) s f m x [] { s with sync := { s.sync with watches := s.sync.watches.set none a0 none } })) ∧
    (InMailbox s f m 0x31 x → first % 2 ^ 14 + n ≤ 2 ^ 14 → (∀ j < n, routeFits (first % 2 ^ 14 + j) (entry j)) →
      MailboxOk (.routeSet f m) s f m x [] fun t => sameFab t ∧ t.fab.groups = s.fab.groups ∧
        (∀ j < n, t.fab.routes.get {} (first % 2 ^ 14 + j) = routeOf (entry j)) ∧
        ∀ d, (d < first % 2 ^ 14 ∨ first % 2 ^ 14 + n ≤ d) → t.fab.routes.get {} d = s.fab.routes.get {} d) ∧
    (InMailbox s f m 0x32 x → first % 2 ^ 12 + n ≤ 2 ^ 12 → (∀ j < n, leaves (entry j)) →
      MailboxOk (.mcastSet f m) s f m x [] fun t => sameFab t ∧ t.fab.routes = s.fab.routes ∧
        (∀ j < n, t.fab.groups.get {} (first % 2 ^ 12 + j) = groupEntryOf (entry j)) ∧
        ∀ d, (d < first % 2 ^ 12 ∨ first % 2 ^ 12 + n ≤ d) → t.fab.groups.get {} d = s.fab.groups.get {} d) ∧
    (InMailbox s f m 0x31 x → 0 < n → first % 2 ^ 14 + n ≤ 2 ^ 14 → ¬ routeFits (first % 2 ^ 14) (entry 0) →
      MailboxRefused (.routeSet f m) s f m x Err.routeLoad 0 fun t => t.fab.routes = s.fab.routes ∧
        (s.fab.err = false → t.fab.err = true ∧ t.fab.errCode = Err.routeLoad)) ∧
    (InMailbox s f m 0x33 x → ∀ on, bit a0 16 = on →
      MailboxMakes (if on then .fenceSet f m else .fenceClear f m) s f m x [] { s with fab := { s.fab with
        routes := s.fab.routes.mod {} (first % 2 ^ 14) fun r => { r with fence := on } } }) ∧
    (InMailbox s f m 0x34 x → ∃ t, exec (.ctxReset f m) s = .next t ∧ t.answer = .ok [] ∧ t.mem = s.mem ∧ t.sync = s.sync ∧
      (∀ k h, k.named (a0 % 2 ^ 14) (bit a0 14) = true → t.fab.txOf k = some h → h.out = [] ∧ h.next = 0 ∧ h.waiting = [] ∧ h.retries = 0) ∧
      (∀ k h, k.named (a0 % 2 ^ 14) (bit a0 14) = true → t.fab.rxOf k = some h → h.base = none ∧ h.map = 0 ∧ h.held = [])) ∧
    (InMailbox s f m 0x35 x → a0 < 36 →
      (laneOk → ∃ l, MailboxOk (.laneAssign f m) s f m x [] fun t => t.link a0 = l ∧ (∀ j, j ≠ a0 → t.link j = s.link j) ∧ t.mem = s.mem ∧
        t.fab = s.fab ∧ (∀ j < 9, l.txRole.get 1 j = roleOf (x.arg 1) j false ∧ l.rxRole.get 1 j = roleOf (x.arg 1) j true) ∧
        { l with txRole := (s.link a0).txRole, rxRole := (s.link a0).rxRole } = s.link a0) ∧
      (¬ laneOk → MailboxRefused (.laneAssign f m) s f m x Err.laneAssign 0 fun t => t.opt.links = s.opt.links ∧ t.mem = s.mem ∧
        Captured s t Err.laneAssign))

/-- R307, R309, R313, R320: PARTITION_CONFIG gives a partition its cores once their domains are on, or takes them away; one with a job is
PARTITION_BUSY, and cores that are not a block of their own are PARTITION_FORM. PARTITION_BIND binds a virtual function. PARTITION_RESET
leaves the partition running with no list and its cores reset. RESUME sets a loaded partition running. -/
def Obligations.PartitionsAreConfigured : Prop :=
  ∀ (s : State) (f m : Nat) (x : Mbox),
    let w := x.arg 0
    let p := w % 8
    let first := bits w 8 4
    let n := 2 ^ bits w 14 12
    let mine (c : Nat) : Prop := (s.part p).holds c = true
    let alone : Prop := ∀ q < 8, q ≠ p → ∀ i < n, (s.part q).holds (first + i) = false
    let unjobbed : Prop := (s.part p).job = false ∧ ∀ q < 8, q ≠ p → ∀ i < n, (s.part q).holds (first + i) = true → (s.part q).job = false
    let block : Prop := first % n = 0 ∧ first + n ≤ 32 ∧ alone
    (InMailbox s f m 0x20 x → bit w 15 = true →
      (unjobbed → block → (∀ i < n, s.domainOn (first + i) = true) →
        MailboxMakes (.partitionConfig f m) s f m x [] (s.modPart p fun y =>
          { y with valid := true, first := first, log2 := bits w 14 12, energy := 0, streamEnergy := [] })) ∧
      (unjobbed → block → ¬ (∀ i < n, s.domainOn (first + i) = true) → ∃ t, exec (.partitionConfig f m) s = .next t ∧ t.answer = .held ∧
        Begun t f m ∧ (∀ i < n, t.pwr.req.getLsbD (first + i) = true) ∧ t.parts = s.parts ∧ t.mem = s.mem) ∧
      (¬ unjobbed → MailboxRefused (.partitionConfig f m) s f m x Err.partitionBusy 0 fun t => Kept s t) ∧
      (unjobbed → ¬ block → MailboxRefused (.partitionConfig f m) s f m x Err.partitionForm 0 fun t => Kept s t)) ∧
    (InMailbox s f m 0x20 x → bit w 15 = false →
      ((s.part p).busy = true → MailboxRefused (.partitionConfig f m) s f m x Err.partitionBusy 0 fun t => Kept s t) ∧
      ((s.part p).busy = false → ∃ t, exec (.partitionConfig f m) s = .next t ∧ t.answer = .ok [] ∧ (t.part p).valid = false ∧
        (t.part p).job = false ∧ (t.part p).streams = [] ∧ (t.part p).mem.regions = [] ∧ (∀ c, mine c → (t.core c).run = .idle) ∧
        (∀ c, ¬ mine c → t.core c = s.core c) ∧ ∀ i, (s.sync.group i).part = p → (t.sync.group i).valid = false)) ∧
    (InMailbox s f m 0x21 x → MailboxMakes (.partitionBind f m) s f m x [] (s.modFn (w % 16) fun y =>
      { y with bound := if bit w 7 then some (bits w 6 4) else none })) ∧
    (InMailbox s f m 0x22 x → ∃ t, exec (.partitionReset f m) s = .next t ∧ t.answer = .ok [] ∧ (t.part p).halted = false ∧
      (t.part p).haltReq = none ∧ (t.part p).streams = [] ∧ (t.part p).snap.quiesced = false ∧ ∀ c, mine c → t.core c = {}) ∧
    (InMailbox s f m 0x56 x →
      ((s.part p).snap.loaded = true → (s.part p).snap.fill = none → MailboxOk (.resume f m) s f m x [] fun t =>
        (t.part p).halted = false ∧ (t.part p).haltCode = 0 ∧ (t.part p).snap.quiesced = false ∧ (∀ c, mine c → (t.core c).run = .idle ∧
          (t.core c).launches = [] ∧ (t.core c).block = none ∧ (t.core c).g = (s.core c).g) ∧ (∀ c, ¬ mine c → t.core c = s.core c) ∧
        t.mem = s.mem ∧ t.sync = s.sync ∧ (t.part p).epoch = (s.part p).epoch ∧ (t.part p).streams = (s.part p).streams) ∧
      ((s.part p).snap.loaded = false ∨ (s.part p).snap.fill ≠ none → MailboxRefused (.resume f m) s f m x Err.resumeState 0 fun t => Kept s t))

/-- R170, R251 to R254, R308, R310, R312, R320: JOB_LOAD puts the job of an image in form in the place of the old one: seed, epoch, regions, groups
whose counters start at 0, and empty streams; a partition at work is PARTITION_BUSY, an image out of form MBX_FORM, groups of another
partition COUNTER_OWNER; a region entry that stands as before keeps its SIDE (R134); an image is read as requests of the dispatch processor
(R130), one that memory refuses ends the command with its code. PLAN_LOAD loads an image in form of features that the firmware offers, with no collective or stream at work. SUBMIT
appends a list to a stream, at its start or where the stream stood; where a squash has brought ended lists back, it takes their place. -/
def Obligations.JobsPlansAndLists : Prop :=
  ∀ (s : State) (f m : Nat) (x : Mbox) (j : Job) (y : Plan) (h : List Byte) (r : State) (c : Code),
    let p := x.arg 0 % 8
    let k := bits (x.arg 0) 13 8
    let lo := x.arg 1
    let hi := x.arg 2
    let z := s.stream p k
    let list (a : Nat) : SubList := { fn := f, mbox := m, first := lo, fin := hi, start := a }
    let appended (a : Nat) : Prop := ∃ t, exec (.submit f m) s = .next t ∧ t.answer = .ok [] ∧ Begun t f m ∧
      OnlyMailbox t (s.modStream p k fun u => { u with lists := u.lists ++ [list a] }) f m
    let replaced (a : Nat) : Prop := ∃ t, exec (.submit f m) s = .next t ∧ t.answer = .ok [] ∧ Begun t f m ∧
      OnlyMailbox t (s.modStream p k fun u => { u with lists := [list a] }) f m
    let turned (i : Instr) (c : Code) (d : Nat) : Prop := MailboxRefused i s f m x c d fun t => Kept s t
    let load : Instr := .jobLoad f m
    let quiet : Prop := s.jobBusy p = false
    (InMailbox s f m 0x23 x → (s.part p).valid = true →
      (s.jobBusy p = true → turned load Err.partitionBusy 0) ∧
      (quiet → s.imageRead (some p) (x.arg 3) 0x100 = (.ok h, r) → jobHeadOk h = false →
        MailboxRefused load s f m x Err.mbxForm 0 fun t => Kept r t) ∧
      (quiet → s.jobRead p (x.arg 3) = (.error (.memory c), r) → MailboxRefused load s f m x c 0 fun t => Kept r t) ∧
      (quiet → s.jobRead p (x.arg 3) = (.error .held, r) → exec load s = .next { s with answer := .idle }) ∧
      (quiet → s.jobRead p (x.arg 3) = (.ok j, r) → r.jobGroupsOk p j = false →
        MailboxRefused load s f m x Err.counterOwner 0 fun t => Kept r t) ∧
      (quiet → s.jobRead p (x.arg 3) = (.ok j, r) → ∀ u, r.jobPut p (x.arg 1) (x.arg 2) j = .ok u →
        ((∀ d ∈ j.domains (s.part p).cores, r.domainOn d = true) → ∃ t, exec load s = .next t ∧ t.answer = .ok [] ∧ OnlyMailbox t u f m) ∧
        (¬ (∀ d ∈ j.domains (s.part p).cores, r.domainOn d = true) → ∃ t, exec load s = .next t ∧ t.answer = .held ∧ Begun t f m ∧
          t.parts = r.parts ∧ t.sync = r.sync ∧ ∀ d ∈ j.domains (s.part p).cores, d < 64 → t.pwr.req.getLsbD d = true) ∧
        ((u.part p).job = true ∧ (u.part p).jobSeed = BitVec.ofNat 64 (x.arg 1)) ∧
        (r.sync.watches = [] → (u.part p).epoch = BitVec.ofNat 64 (x.arg 2) ∧ (u.part p).streams = [] ∧
          (u.part p).traceBase = j.traceBase ∧ (u.part p).mem.deferBase = j.deferBase ∧ (u.part p).mem.deferSize = j.deferSize ∧
          (∀ e ∈ j.groups, u.sync.groups.get {} e.1 = groupOf (e.2 % 256) ∧ ∀ i, i / 256 = e.1 → u.sync.val false i = 0 ∧ u.sync.val true i = 0) ∧
          u.sync.splits.get {} p = splitOf j.split ∧
          ∀ i, let g := (u.part p).mem.regions.get {} i
            let o := (r.part p).mem.regions.get {} i
            g.valid = true → g.paired = true → g.side = (o.valid && o.paired && g.base == o.base && g.limit == o.limit && o.side)))) ∧
    (InMailbox s f m 0x23 x → (s.part p).valid = false → turned load Err.partitionForm 0) ∧
    (InMailbox s f m 0x30 x →
      (s.planRead (x.arg 0) = (.error (.form Err.planForm), r) → MailboxRefused (.planLoad f m) s f m x Err.planForm 0 fun t =>
        t.fab = r.fab ∧ t.sync = r.sync ∧ t.rake.valid = r.rake.valid ∧
        (r.rake.err = false → t.rake.err = true ∧ t.rake.errCode = Err.planForm)) ∧
      (s.planRead (x.arg 0) = (.error (.memory c), r) → MailboxRefused (.planLoad f m) s f m x c 0 fun t => Kept r t) ∧
      (s.planRead (x.arg 0) = (.error .held, r) → exec (.planLoad f m) s = .next { s with answer := .idle }) ∧
      (s.planRead (x.arg 0) = (.ok y, r) →
        (y.features &&& ~~~s.host.offered ≠ 0 → MailboxRefused (.planLoad f m) s f m x Err.planFeatures 0 fun t => t.fab = r.fab) ∧
        (y.features &&& ~~~s.host.offered = 0 →
          (s.planBusy = true → MailboxRefused (.planLoad f m) s f m x Err.planBusy 0 fun t => t.fab = r.fab) ∧
          (s.planBusy = false → (∀ d ∈ y.domains, r.domainOn d = true) → (r.planPut y).1 = none →
            ∃ t, exec (.planLoad f m) s = .next t ∧ t.answer = .ok [] ∧ OnlyMailbox t (r.planPut y).2 f m))) ∧
      ((s.planRegs y).fab.id = wordAt y.head 0x12 2 ∧ (s.planRegs y).rake.valid = false ∧ (s.planRegs y).sync.ctrl = ftCtrlOf y.ftCtrl ∧
        (∀ i v, y.links[i]? = some v → (s.planTables y).rake.links.get {} i = linkExpOf v) ∧
        (∀ i v, y.colls[i]? = some v → (s.planTables y).rake.entries.get {} i = collEntryOf (wordsOf v)) ∧
        (s.planValid y).rake.valid = true ∧ (s.planValid y).rake.planId = BitVec.ofNat 64 (wordAt y.head 8 8))) ∧
    (InMailbox s f m 0x40 x → (s.part p).valid = true →
      ((s.part p).halted = true → turned (.submit f m) Err.partitionHalted 0) ∧
      ((s.part p).halted = false →
        (hi ≤ lo → turned (.submit f m) Err.mbxForm 0x090) ∧
        (lo < hi → 8 ≤ z.submitted.length → turned (.submit f m) Err.streamFull 0) ∧
        (lo < hi → z.submitted.length < 8 → bit (x.arg 0) 14 = false → appended lo) ∧
        (lo < hi → z.lists = [] → bit (x.arg 0) 14 = true → z.hasPos = true → lo ≤ z.pos → z.pos < hi → appended z.pos) ∧
        (∀ l r, lo < hi → z.lists = l :: r → z.started = true → bit (x.arg 0) 14 = true → lo ≤ z.pos → z.pos < hi →
          (0 < z.submitted.length → z.submitted.length < 8 → appended z.pos) ∧ (z.submitted = [] → replaced z.pos)) ∧
        (lo < hi → z.lists = [] → bit (x.arg 0) 14 = true → (z.hasPos = false ∨ z.pos < lo ∨ hi ≤ z.pos) →
          turned (.submit f m) Err.mbxForm 0x081)))

/-- R276, R277, R287 to R290: SNAP_CONFIG puts a configuration that may stand in force, SNAP_SET the next snapshot's steps and anchor; RESTORE
quiesces the partition and loads the job-complete slot of the epoch named; FILL empties a slot and waits for its sources; FILL_SERVE sends
what the client lacks, and ends once it is all performed; FILL_CANCEL stops it, with success or a code that R9 does not reserve (log entry 64). -/
def Obligations.SnapshotCommands : Prop :=
  ∀ (s : State) (f m : Nat) (x : Mbox) (l : List Send) (v : Serve) (t0 : State) (k : Nat),
    let w := x.arg 0
    let p := w % 8
    let y := (s.part p).snap.configured x.arg
    let u := s.restoreBegin p (x.arg 2)
    let client := bits w 45 32
    let coded (t : State) (c : Code) : Prop := (s.part p).snap.err = false → (t.part p).snap.err = true ∧ (t.part p).snap.errCode = c
    let none' (i : Nat) : Prop := ((u.part p).snap.slots.get {} i).state ≠ 3 ∨ ((u.part p).snap.slots.get {} i).epoch.toNat ≠ x.arg 1
    (InMailbox s f m 0x50 x →
      (s.snapOk p y = true → MailboxMakes (.snapConfig f m) s f m x [] (s.modSnap p fun _ => y)) ∧
      (s.snapOk p y = false → MailboxRefused (.snapConfig f m) s f m x Err.snapConfigForm 0 fun t => coded t Err.snapConfigForm ∧
        (t.part p).snap.regions = (s.part p).snap.regions ∧ t.mem = s.mem ∧ t.cores = s.cores)) ∧
    (InMailbox s f m 0x51 x →
      ((s.part p).epoch.toNat < x.arg 2 → MailboxMakes (.snapSet f m) s f m x [] (s.modSnap p fun z =>
        { z with steps := x.arg 1, anchor := BitVec.ofNat 64 (x.arg 2) })) ∧
      (x.arg 2 ≤ (s.part p).epoch.toNat → MailboxRefused (.snapSet f m) s f m x Err.snapEpoch 0 fun t => coded t Err.snapEpoch ∧
        (t.part p).snap.anchor = (s.part p).snap.anchor ∧ (t.part p).snap.steps = (s.part p).snap.steps)) ∧
    ((u.part p).snap.failTimes.head? = some (BitVec.ofNat 64 (x.arg 2)) ∧ (u.part p).snap.loaded = false) ∧
    (InMailbox s f m 0x52 x →
      ((∀ i < 3, none' i) → ∃ t, exec (.restore f m) s = .next t ∧ t.answer = .refused Err.restoreEpoch ∧ t.mem = u.mem ∧ t.cores = u.cores) ∧
      (k < 3 → ¬ none' k → (∀ i < k, none' i) → u.loadSlot p k = (none, t0) → ∃ t, exec (.restore f m) s = .next t ∧ t.answer = .ok [] ∧
        OnlyMailbox t t0 f m)) ∧
    (InMailbox s f m 0x53 x → u.drainPut p ((u.part p).snap.slotAt (u.part p).snap.freeSlot) (List.replicate 0x1040 0) = (.ok [], t0) →
      ∃ t, exec (.fill f m) s = .next t ∧ t.answer = .ok [] ∧ OnlyMailbox t (t0.modSnap p fun z => { z with
        slots := z.slots.set {} (u.part p).snap.freeSlot { epoch := BitVec.ofNat 64 (x.arg 1), state := 1 }
        fill := some { epoch := BitVec.ofNat 64 (x.arg 1), sources := bits w 39 32, counter := bits w 31 16,
                       slot := (u.part p).snap.freeSlot, fn := f, mbox := m } }) f m) ∧
    (InMailbox s f m 0x54 x →
      let sends := s.serveSends p (bits w 5 4) client (bits w 29 16) (x.arg 1) (x.arg 3) (BitVec.ofNat 64 (x.arg 2)) (bit w 6)
      ((s.part p).snap.fill ≠ none → MailboxRefused (.fillServe f m) s f m x Err.fillBusy 0 fun t => coded t Err.fillBusy) ∧
      ((s.part p).snap.fill = none → sends = none → MailboxRefused (.fillServe f m) s f m x Err.fillNoSource 0 fun t =>
        coded t Err.fillNoSource) ∧
      ((s.part p).snap.fill = none → sends = some l → ∃ t, exec (.fillServe f m) s = .next t ∧ t.answer = .ok [] ∧ Begun t f m ∧
        OnlyMailbox t (s.modSnap p fun z => { z with
          serves := z.serves ++ [{ client := client, fn := f, mbox := m, sends := l }] }) f m)) ∧
    (Waiting s f m 0x54 x → (s.part p).snap.serves = [v] → v.fn = f → v.mbox = m → v.sends = [] → s.outstanding (.serve p client) = 0 →
      MailboxMakes (.fillServe f m) s f m x [] (s.modSnap p fun z => { z with serves := [] })) ∧
    (InMailbox s f m 0x55 x →
      ((∀ z ∈ (s.part p).snap.serves, z.client ≠ bits w 29 16) → s.outstanding (.serve p (bits w 29 16)) = 0 →
        MailboxOk (.fillCancel f m) s f m x [] fun t => (∀ q, t.part q = s.part q) ∧ t.mem = s.mem ∧ t.cores = s.cores ∧ t.fab = s.fab) ∧
      ((s.part p).snap.serves = [v] → v.client = bits w 29 16 → 64 * v.fn + v.mbox ≠ 64 * f + m → (s.mbox v.fn v.mbox).state = 1 →
        s.outstanding (.serve p (bits w 29 16)) = 0 → ∃ t, exec (.fillCancel f m) s = .next t ∧ t.answer = .ok [] ∧
          (t.part p).snap.serves = [] ∧ (t.mbox v.fn v.mbox).state = 2 ∧ Ended t f m x 0 0 [] ∧
          let st := (t.mbox v.fn v.mbox).status
          st = 0 ∨ (256 < st ∧ st < 0xE00 ∧ st % 256 ≠ 0)) ∧
      (s.outstanding (.serve p (bits w 29 16)) ≠ 0 → ∃ t, exec (.fillCancel f m) s = .next t ∧ t.answer = .held ∧
        ∀ z ∈ (t.part p).snap.serves, z.client ≠ bits w 29 16))

/-- R278, R281 to R283, R288, R289: the drain captures a page at a time from the half that the epoch left, then writes the record and sends to the
holders; once every write is performed the modules agree; a value of +0 makes the snapshot job-complete, any other discards it. A FILL whose
sources have all counted loads its slot, which becomes the last job-complete one; a schedule record gives back the epoch, the streams'
places and the phases. -/
def Obligations.DrainsAgreeAndFill : Prop :=
  ∀ (s : State) (p i page off : Nat) (d : Drain) (a : Agree) (e : Fill) (g : Region) (bs : List Byte) (t1 t2 : State) (v : BitVec 32)
      (r : SchedRec), p < 8 →
    let x := (s.part p).snap
    let src := g.base + g.half + 4096 * page
    let dst := x.slotAt d.slot + off + 4096 * page
    (x.drain = some d → s.nextPage p = some (i, page) → (s.part p).snapList = [(i, g, off)] → s.mem.held = [] →
      s.drainGet p src 4096 = (.ok bs, t1) → t1.drainPut p dst bs = (.ok [], t2) → t2.mem.held = [] → (t2.part p).snap = x →
      ∃ t, exec (.pageCapture p) s = .next t ∧ t.answer = .ok [] ∧ t.mem = t2.mem ∧ t.cores = t2.cores ∧
        (t.part p).snap.drainDone = x.drainDone + 4096 ∧ ∃ d', (t.part p).snap.drain = some d' ∧ d'.pages = d.pages ++ [(i, page)] ∧
          d'.epoch = d.epoch ∧ d'.slot = d.slot ∧ d'.sending = d.sending) ∧
    (x.drain = some d → d.sending = false → (s.part p).uncaptured = [] → s.mem.held = [] → ∀ n, s.closeSlot p d = (.ok [], t1, n) →
      t1.mem.held = [] → (t1.part p).snap.drain = some d →
      ∃ t, exec (.drainCaptureDone p) s = .next t ∧ t.answer = .ok [] ∧ t.mem = t1.mem ∧ t.cores = t1.cores ∧
        (t.part p).snap.drain = some { d with sending := true } ∧ (t1.part p).snap.sends.length < (t.part p).snap.sends.length) ∧
    (x.drain = some d → d.sending = true → x.sends = [] → s.outstanding (.drain p) = 0 →
      Makes (.drainWritten p) s (s.modSnap p fun z => { z with
        drain := none, slots := z.slots.mod {} d.slot fun q => { q with state := 2 },
        agree := some { epoch := d.epoch, good := true, slot := some d.slot, base := d.base } })) ∧
    (x.agree = some a → a.good = true → v = 0 → a.slot = some i → ∃ t, exec (.agreeResult p v) s = .next t ∧ t.answer = .ok [] ∧
      (t.part p).snap.latest = i ∧ (t.part p).snap.lastComplete = a.epoch ∧ (t.part p).snap.complete = x.complete + 1 ∧
      ((t.part p).snap.slots.get {} i).state = 3 ∧ (∀ j, j ≠ i → (t.part p).snap.slots.get {} j = x.slots.get {} j) ∧
      (a.base = true → (t.part p).snap.base = i ∧ (t.part p).snap.lastBase = a.epoch ∧ (t.part p).snap.needBase = false) ∧
      (a.base = false → (t.part p).snap.base = x.base ∧ (t.part p).snap.sinceBase = x.sinceBase + 1) ∧ t.mem = s.mem ∧ t.cores = s.cores) ∧
    (x.agree = some a → (a.good = false ∨ v ≠ 0) → a.slot = some i → ∃ t, exec (.agreeResult p v) s = .next t ∧ t.answer = .ok [] ∧
      (t.part p).snap.latest = x.latest ∧ (t.part p).snap.lastComplete = x.lastComplete ∧ (t.part p).snap.notComplete = x.notComplete + 1 ∧
      (t.part p).snap.slots.get {} i = {} ∧ (∀ j, j ≠ i → (t.part p).snap.slots.get {} j = x.slots.get {} j) ∧
      (x.err = false → (t.part p).snap.err = true ∧ (t.part p).snap.errCode = Err.snapAbandoned) ∧ t.mem = s.mem ∧ t.cores = s.cores) ∧
    (x.fill = some e → e.sources ≤ (s.sync.val false e.counter).toNat → s.slotWhole p e.slot e.epoch = true →
      s.loadSlot p e.slot = (none, t1) → ∃ t, exec (.fillLoad p) s = .next t ∧ t.answer = .ok [] ∧ (t.part p).snap.fill = none ∧
        (t.part p).snap.latest = e.slot ∧ (t.part p).snap.lastComplete = e.epoch ∧
        (t.part p).snap.slots.get {} e.slot = { epoch := e.epoch, state := 3 } ∧ t.mem = t1.mem ∧ t.cores = t1.cores ∧ t.sync = t1.sync ∧
        ((t1.mbox e.fn e.mbox).state = 1 → (t.mbox e.fn e.mbox).state = 2 ∧ (t.mbox e.fn e.mbox).status = 0)) ∧
    (x.fill = some e → e.sources ≤ (s.sync.val false e.counter).toNat → s.slotWhole p e.slot e.epoch = false →
      ∃ t, exec (.fillLoad p) s = .next t ∧ t.answer = .refused Err.fillNoSource ∧ (t.part p).snap.fill = none ∧ t.mem = s.mem ∧
        t.cores = s.cores) ∧
    (s.sync.watches = [] → (s.part p).valid = true → let q := (s.applyRec p r).part p
      q.epoch = r.epoch ∧ q.phases = r.phases ∧ q.attempt = 0 ∧ (∀ k < 64, (q.streams.get {} k).pos = r.streams.get 0 k ∧
        (q.streams.get {} k).lists = []) ∧ (s.applyRec p r).mem = s.mem ∧
      (((s.applyRec p r).core (s.part p).first).ve).draw = r.draws.get {} 0)

/-- R5, R296 to R300, R309, R315, R316, R318, R342: the host's ways in: BAR2 reads and writes the bytes that the window shows, one page at a time;
a refused access sets EVENTS.BAR2_FAULT; DMA_COPY moves bytes between the memories and may add to a counter; a register takes a write by its
access code, or its block refuses it; a mailbox takes bytes only while it is free; a function reset clears the function. -/
def Obligations.HostReachesTheModule : Prop :=
  ∀ (s : State) (f m off n q o : Nat) (x : Mbox) (h : Hit) (data : List Byte) (w : Who) (y : RegVal) (u v : State),
    let a := (s.fn f).bar2Base + off
    let inWindow : Prop := s.fnOn f = true ∧ 0 < n ∧ off + n ≤ 2 ^ (30 + (s.fn f).bar2Size)
    let plain (r : Req) : Prop := Admitted s r h ∧ h.reg.cache = false ∧ (s.part h.part).snap.drain = none
    let readable (r : Req) : Prop := plain r ∧ s.mem.poisoned (h.target r) r.len = false
    let bytes (r : Req) : List Byte := s.mem.bytes.getList 0 (h.target r) r.len
    let faulted (i : Instr) (c : Code) : Prop := ∃ t, exec i s = .next t ∧ t.answer = .refused c ∧ t.mem = s.mem ∧ t.cores = s.cores ∧
      (t.fn f).events.getLsbD 4 = true ∧ ((s.fn f).events.getLsbD 4 = false → (t.fn f).bar2Code = c ∧ (t.fn f).bar2Addr = a)
    let rest (t : State) : Prop := { t with mem := s.mem, mcs := s.mcs, answer := s.answer } = s
    let toDevice : Prop := InMailbox s f m 0x41 x ∧ bit (x.arg 0) 0 = false ∧ data.length = x.arg 3
    let cnt := bits (x.arg 0) 31 16
    let win := 0x10000 + 4096 * m + q
    let free : Prop := (s.mbox f m).state ≠ 1 ∧ (s.mbox f m).armed = none
    let reg : Instr := .registerWrite (.config w (cfgBase + o) data)
    (inWindow → a % 4096 + n ≤ 4096 → f = 0 →
      (readable (hostReq 0 .read a n []) → ∃ t, exec (.bar2Read f off n) s = .next t ∧ t.answer = .ok (bytes (hostReq 0 .read a n [])) ∧
        t.mem = s.mem ∧ rest t) ∧
      (n = data.length → plain (hostReq 0 .write a n data) → ∃ t, exec (.bar2Write f off data) s = .next t ∧ t.answer = .ok [] ∧
        Stored s.mem t.mem (h.target (hostReq 0 .write a n data)) data ∧ rest t)) ∧
    (inWindow → 4096 < a % 4096 + n → faulted (.bar2Read f off n) 0x0A0F ∧ (n = data.length → faulted (.bar2Write f off data) 0x0A0F)) ∧
    (inWindow → a % 4096 + n ≤ 4096 → f ≠ 0 → (s.fn f).bound = none → faulted (.bar2Read f off n) Err.permission ∧
      (n = data.length → faulted (.bar2Write f off data) Err.permission)) ∧
    (toDevice → State.dmaIn f (pieces 4096 (x.arg 2) data.length) data s = (.moved [], u) →
      (bit (x.arg 0) 1 = false → ∃ t, exec (.dmaCopyToDevice f m data false) s = .next t ∧ t.answer = .ok [] ∧ OnlyMailbox t u f m) ∧
      (bit (x.arg 0) 1 = true → u.dmaCount f cnt = (none, v) → ∃ t, exec (.dmaCopyToDevice f m data false) s = .next t ∧ t.answer = .ok [] ∧
        OnlyMailbox t v f m)) ∧
    (toDevice → f = 0 → bit (x.arg 0) 1 = false → 0 < data.length → x.arg 2 % 4096 + data.length ≤ 4096 →
      plain (hostReq 0 .write (x.arg 2) data.length data) → MailboxOk (.dmaCopyToDevice f m data false) s f m x [] fun t =>
        Stored s.mem t.mem (h.target (hostReq 0 .write (x.arg 2) data.length data)) data ∧ t.cores = s.cores ∧ t.sync = s.sync ∧
        t.parts = s.parts) ∧
    (InMailbox s f m 0x41 x → f = 0 → bit (x.arg 0) 0 = true → bit (x.arg 0) 1 = false → 0 < x.arg 3 → x.arg 2 % 4096 + x.arg 3 ≤ 4096 →
      readable (hostReq 0 .read (x.arg 2) (x.arg 3) []) → MailboxOk (.dmaCopyToHost f m none) s f m x [] fun t =>
        Out.hostWrite (x.arg 1) (bytes (hostReq 0 .read (x.arg 2) (x.arg 3) [])) ∈ t.out ∧ t.mem = s.mem ∧ t.cores = s.cores ∧
        t.sync = s.sync ∧ t.parts = s.parts) ∧
    (InMailbox s f m 0x41 x → bit (x.arg 0) 0 = false → 0 < x.arg 3 → MailboxRefused (.dmaCopyToDevice f m [] true) s f m x Err.dmaFault
      (x.arg 1) fun t => Kept s t) ∧
    (o % regSize o = 0 → data.length = regSize o → o + data.length ≤ cfgSize →
      (s.cfgMay w o = true → let r := s.regPut w o { v := leNat data, c := leNat data }
        (r.1 = none → Makes reg s r.2) ∧ ∀ c, r.1 = some c → exec reg s = .next { r.2 with answer := .refused c }) ∧
      (s.cfgMay w o = false → ∃ t, exec reg s = .next t ∧ t.answer = .refused (cfgCode (cfgBase + o)) ∧ t.mem = s.mem ∧ t.cores = s.cores ∧
        t.sync.groups = s.sync.groups ∧ t.sync.ctrl = s.sync.ctrl ∧ t.fab.id = s.fab.id ∧ t.fab.routes = s.fab.routes ∧
        t.pwr.req = s.pwr.req)) ∧
    (s.regPut w 0x1100008 y = (none, { s with fab := { s.fab with id := y.v % 2 ^ 14 } }) ∧
      (bit y.c 0 = true → s.regPut w 0x1080000 y = (none, { s with sync := { s.sync with
        err := false, errCode := 0, faultAddr := 0, faultSrc := 0 } })) ∧
      (bit y.c 0 = false → s.regPut w 0x1080000 y = (none, s))) ∧
    (s.fnOn f = true → m < 64 → 0x80 ≤ q → q + data.length ≤ 4096 → 0 < data.length →
      (free → ∃ t, exec (.registerWrite (.bar0 f win data)) s = .next t ∧ t.answer = .ok [] ∧ OnlyMailbox t s f m ∧
        (t.mbox f m).bytes.getList 0 q data.length = data ∧ (t.mbox f m).state = (s.mbox f m).state) ∧
      (¬ free → Makes (.registerWrite (.bar0 f win data)) s (s.modFn f fun z => { z with discards := z.discards + 1 }))) ∧
    (s.fnOn f = true → ∀ b : Byte, Makes (.registerWrite (.bar0 f 0xC [b])) s (s.modFn f fun z =>
      { z with events := z.events &&& ~~~BitVec.ofNat 5 b.toNat })) ∧
    (s.fnOn f = true → s.rst.stretch = none → f ≠ 0 → (s.fn f).bound = none → ∃ t, exec (.functionLevelReset f) s = .next t ∧
      t.answer = .ok [] ∧ t.fn f = {} ∧ (∀ k < 64, t.mbox f k = {}) ∧ (∀ g k, g ≠ f → k < 64 → t.mbox g k = s.mbox g k) ∧
      (∀ g, g ≠ f → t.fn g = s.fn g) ∧ t.rst = { s.rst with kind := 3, source := 9, remoteId := 0 } ∧
      { t with host := s.host, rst := s.rst, answer := s.answer } = s) ∧
    (s.hostUp = true → s.rst.stretch = none → s.jobs = [] → ∃ t, exec .hotReset s = .next t ∧ t.answer = .ok [] ∧
      (∀ g < 9, t.fn g = { bound := (s.fn g).bound } ∧ ∀ k < 64, t.mbox g k = {}) ∧ t.host.vfEnable = false ∧ t.host.linkFast = false ∧
      t.rst = { s.rst with kind := 3, source := 8, remoteId := 0 } ∧ { t with host := s.host, rst := s.rst, answer := s.answer } = s) ∧
    (s.hostUp = true → (∀ on, Makes (.configurationWrite (.vfEnable on)) s { s with host := { s.host with vfEnable := on } }) ∧
      (f < 9 → n ≤ 6 → Makes (.configurationWrite (.bar2Size f n)) s (s.modFn f fun z => { z with bar2Size := n })))

/-- R92, R319, R320, R326, R328 to R334, R337: power: domains asked for and switched off, where their condition holds; the ladder, a step a tick; the
gate of the input limit; duty windows that hold the cores; a hint that puts the ladder where its class was; the thermal warning and
throttle, each 3 °C of hysteresis and 1 s wide; thresholds clamped; registers that the host alone writes. -/
def Obligations.PowerIsControlled : Prop :=
  ∀ (s : State) (d k p st du watts volts input : Nat) (w : Who) (v : Word) (v32 : BitVec 32) (temps : List Int)
      (ps : List (Nat × Nat)) (ss : List (Nat × Nat × Nat)),
    let x := s.pwr
    let off : Word := x.req &&& ~~~BitVec.ofNat 64 (2 ^ d)
    let ft := s.sync.ft.toNat
    let coded (t : State) (c : Code) : Prop := x.err = false → t.pwr.err = true ∧ t.pwr.errCode = c
    let hot := (hottest temps).1
    let up : Prop := x.gated = true ∨ x.throttle = true ∨ x.cap < x.power
    let warn := v32.toNat % 256
    let thr := v32.toNat / 256 % 256
    (w.isHost = false →
      (∃ t, exec (.pwrDomainReqWrite w v) s = .next t ∧ t.answer = .refused Err.pwrWrite ∧ coded t Err.pwrWrite ∧ t.pwr.req = x.req ∧
        t.pwr.on = x.on ∧ t.mem = s.mem ∧ t.cores = s.cores) ∧
      ∃ t, exec (.thermCtrlWrite w v32) s = .next t ∧ t.answer = .refused Err.pwrWrite ∧ coded t Err.pwrWrite ∧
        t.pwr.tWarn = x.tWarn ∧ t.pwr.tThrottle = x.tThrottle) ∧
    (w.isHost = true →
      ((∀ i < 57, x.req.getLsbD i = true → v.getLsbD i = true) → ∃ t, exec (.pwrDomainReqWrite w v) s = .next t ∧ t.answer = .ok [] ∧
        t.pwr.on = x.on ∧ t.mem = s.mem ∧ t.cores = s.cores ∧
        ∀ i < 64, t.pwr.req.getLsbD i = (x.req.getLsbD i || (decide (i < 57) && v.getLsbD i))) ∧
      (d < 57 → x.req.getLsbD d = true → s.domainIdle d = true → ∃ t, exec (.pwrDomainReqWrite w off) s = .next t ∧
        t.answer = .ok [] ∧ t.pwr.req = off ∧ t.pwr.on = x.on &&& ~~~BitVec.ofNat 64 (2 ^ d) ∧
        (d < 32 → x.on.getLsbD d = true → t.core d = {} ∧ ∀ i, i ≠ d → t.core i = s.core i)) ∧
      (d < 57 → x.req.getLsbD d = true → s.domainIdle d = false → ∃ t, exec (.pwrDomainReqWrite w off) s = .next t ∧
        t.answer = .refused Err.domainBusy ∧ t.pwr.req = x.req ∧ t.pwr.on = x.on ∧ coded t Err.domainBusy ∧ t.mem = s.mem ∧
        t.cores = s.cores) ∧
      (85 ≤ warn → warn ≤ 110 → warn + 3 ≤ thr → thr ≤ 115 →
        Makes (.thermCtrlWrite w v32) s { s with pwr := { x with tWarn := warn, tThrottle := thr } }) ∧
      (warn < 85 → thr < 88 → ∃ t, exec (.thermCtrlWrite w v32) s = .next t ∧ t.answer = .refused Err.threshRange ∧ t.pwr.tWarn = 85 ∧
        t.pwr.tThrottle = 88 ∧ coded t Err.threshRange)) ∧
    (d < 62 → s.domainReady d = true → ∃ t, exec (.domainPowered d) s = .next t ∧ t.answer = .ok [] ∧
      t.pwr = { x with on := x.on ||| BitVec.ofNat 64 (2 ^ d) } ∧ (32 ≤ d → d < 48 → (t.mc (d - 32)).online = true ∧
        (t.mc (d - 32)).training = false) ∧ { t with pwr := s.pwr, mcs := s.mcs, answer := s.answer } = s) ∧
    (watts < 2 ^ 16 → volts < 2 ^ 16 → s.rst.supply = true →
      let l := (watts :: x.samples).take 100
      (overInput watts volts = false → Makes (.powerSample watts volts) s { s with pwr := { x with
        samples := l, power := meanOf l, volts := volts } }) ∧
      (overInput watts volts = true → ∃ t, exec (.powerSample watts volts) s = .next t ∧ t.answer = .ok [] ∧ t.pwr.gated = true ∧
        t.pwr.inputLimit = true ∧ t.pwr.samples = l ∧ t.pwr.power = meanOf l ∧ (x.gated = false → coded t Err.inputLimit) ∧
        t.pwr.duty ≤ 4 ∧ t.pwr.level = x.level)) ∧
    (ft % 1000000 = 0 → s.rst.supply = true → (∀ e ∈ ps, e.1 < 8) → (∀ e ∈ ss, e.1 < 8 ∧ e.2.1 < 64) → sumOf (ps.map (·.2)) ≤ input →
      ∃ t, exec (.ladderTick input ps ss) s = .next t ∧ t.answer = .ok [] ∧ t.pwr.gated = false ∧ t.mem = s.mem ∧ t.cores = s.cores ∧
        t.pwr.energy = x.energy + BitVec.ofNat 64 input ∧ t.pwr.shared = x.shared + BitVec.ofNat 64 (input - sumOf (ps.map (·.2))) ∧
        (∀ e, ps = [(p, e)] → (t.part p).energy = (s.part p).energy + BitVec.ofNat 64 e) ∧
        (∀ e, ss = [(p, k, e)] → (t.part p).streamEnergy.get 0 k = (s.part p).streamEnergy.get 0 k + BitVec.ofNat 64 e) ∧
        (up → t.pwr.level = min 14 (x.level + 1)) ∧
        (¬ up → x.hints = [] → 100 * x.power ≤ 95 * x.cap → t.pwr.level = x.level - 1) ∧
        (¬ up → x.hints = [] → 95 * x.cap < 100 * x.power → t.pwr.level = x.level) ∧
        (x.cap < x.power → x.level = 14 → x.capUn = false → t.pwr.capUn = true ∧ coded t Err.capUnattainable)) ∧
    (ft % 10000 = 0 → ∃ t, exec .dutyWindowStart s = .next t ∧ t.answer = .ok [] ∧ { t with cores := s.cores, answer := s.answer } = s ∧
      ∀ i < 32, (t.core i).dutyHold = false ∧ ((s.core i).dutyHold = true → (s.core i).run = .held → (s.core i).waiting = none →
        (s.core i).squashHold = false → (s.core i).block ≠ none → (t.core i).run = .issuing)) ∧
    (x.duty < 8 → ft % 10000 = 1250 * x.duty → ∃ t, exec .dutyHold s = .next t ∧ t.answer = .ok [] ∧
      { t with cores := s.cores, answer := s.answer } = s ∧ ∀ i < 32, (t.core i).dutyHold = true ∧ (t.core i).run ≠ .issuing ∧
        ((s.core i).run ≠ .issuing → (t.core i).run = (s.core i).run)) ∧
    (x.hints = [(p, k, st, du, none)] → st ≤ ft + 60000 →
      (x.capUn = true → Makes .hintPreposition s { s with pwr := { x with hints := [] } }) ∧
      (x.capUn = false → x.learned.get 0 k = 0 → ∃ t, exec .hintPreposition s = .next t ∧ t.answer = .ok [] ∧ t.pwr.level = x.level ∧
        t.pwr.hints = [(p, k, st, du, some x.level)] ∧ t.pwr.lastOp.get 0 k = 7 - x.level ∧ t.mem = s.mem ∧ t.cores = s.cores) ∧
      (x.capUn = false → x.learned.get 0 k ≠ 0 → ∃ t n, exec .hintPreposition s = .next t ∧ t.answer = .ok [] ∧ n < 15 ∧
        t.pwr.hints = [(p, k, st, du, some n)] ∧ t.pwr.level = if x.throttle = true ∧ n < x.level then x.level else n)) ∧
    (temps.length = 72 → s.rst.supply = true → ∃ t, exec (.thermalSample temps) s = .next t ∧ t.answer = .ok [] ∧ t.mem = s.mem ∧
      t.cores = s.cores ∧ t.pwr.tjMax = hot / 16 ∧ (∀ i v, temps[i]? = some v → t.mgmt.temps.get 0 i = v ∧ v ≤ hot) ∧
      (((16 * x.tWarn : Nat) : Int) ≤ hot → t.pwr.warn = true ∧ (x.warn = false → hot < ((16 * x.tThrottle : Nat) : Int) → x.throttle = false →
        coded t Err.thermalWarning)) ∧
      (((16 * x.tThrottle : Nat) : Int) ≤ hot → t.pwr.throttle = true) ∧
      (hot < ((16 * x.tWarn : Nat) : Int) → ((16 * x.tWarn : Nat) : Int) - 48 < hot → t.pwr.warn = x.warn) ∧
      (x.warn = true → hot ≤ ((16 * x.tWarn : Nat) : Int) - 48 → ∀ t0, x.warnCool = some t0 →
        (t.pwr.warn = true ↔ s.now < t0 + 1000000000)) ∧
      (x.throttle = true → hot ≤ ((16 * x.tThrottle : Nat) : Int) - 48 → x.throttleCool = none → t.pwr.throttle = true ∧
        t.pwr.throttleCool = some s.now))

/-- R296, R305, R335, R336, R340 to R346, R353, R374, R375, R385: the resets. A compute reset stops the cores and the jobs and keeps memory; a full
reset leaves the module as it starts, but for what the hearth keeps; a block reset is refused where the block is at work; a quench is a
full reset that ends only when its causes have been gone for 1 s; a remote reset needs its tag and a new nonce. RST_CAUSE names each. -/
def Obligations.ResetsTakeEffect : Prop :=
  ∀ (s : State) (f m b n : Nat) (x : Mbox) (arg : Word) (y : Stretch) (pk : Pkt) (h : RxHalf) (dig : BitVec 512),
    let r := s.rst
    let cause (t : State) (kind source remote : Nat) : Prop := t.rst.kind = kind ∧ t.rst.source = source ∧ t.rst.remoteId = remote
    let cleared (t : State) : Prop := t.cores = [] ∧ t.parts = [] ∧ t.mcs = [] ∧ t.mem.bytes = [] ∧ t.fab = {} ∧ t.rake = {} ∧ { t.opt with links := [] } = {} ∧
      (∀ k < 36, t.link k = { changed := if s.linkState k = 0 then 0 else s.now }) ∧
      t.host = {} ∧ t.sync = { clock := s.sync.clock } ∧ t.rst.stage = 0 ∧ t.rst.restarting = false ∧ t.rst.attempt = none ∧
      t.mgmt.flash = s.mgmt.flash ∧ t.mgmt.fw = none ∧ t.mgmt.keys = [] ∧ t.mgmt.fuseFw = s.mgmt.fuseFw ∧ ∀ i < 61, t.domainOn i = false
    let full (t : State) (kind source remote : Nat) : Prop := cleared t ∧ cause t kind source remote ∧ t.rst.rstOutLow = true ∧
      ∃ z, t.rst.stretch = some z ∧ z.kind = kind ∧ z.at' = s.now
    let compute (t : State) (source remote : Nat) : Prop := cause t 2 source remote ∧ t.rst.restarting = true ∧ t.rst.stage = 6 ∧
      t.rst.stretch = some { kind := 2, at' := s.now } ∧ t.rake.active = [] ∧ t.rake.queue = [] ∧ t.mem.bytes = s.mem.bytes ∧
      (∀ c < 32, t.core c = {}) ∧ ∀ p < 8, (s.part p).job = true → (t.part p).halted = true ∧
        (t.part p).haltCode = Err.streamAborted ∧ (t.part p).epoch = (s.part p).epoch ∧ (t.part p).mem.regions = (s.part p).mem.regions
    let calm : Prop := r.stage = 6 ∧ r.stretch = none ∧ s.mem.held = []
    let asked : Prop := InMailbox s f m 0x13 x
    let block (i : Instr) (b source : Nat) (fin : State → Code → Prop) : Prop := r.stretch = none →
      (s.blockIdle b = none → ∃ t, exec i s = .next t ∧ t.answer = .refused Err.blockCode ∧ fin t Err.blockCode ∧ t.cores = s.cores ∧
        t.mem = s.mem) ∧
      (s.blockIdle b = some false ∨ (s.blockIdle b ≠ none ∧ r.blockBusy ≠ none) → ∃ t, exec i s = .next t ∧ t.answer = .refused Err.blockBusy ∧
        fin t Err.blockBusy ∧ t.cores = s.cores ∧ t.mem = s.mem) ∧
      (s.blockIdle b = some true → r.blockBusy = none → ∃ t, exec i s = .next t ∧ t.answer = .ok [] ∧ fin t 0 ∧ cause t 4 source 0 ∧
        t.rst.blockBusy = some b ∧ (b < 0x20 → t.core b = {} ∧ ∀ c, c ≠ b → t.core c = s.core c) ∧
        (0x20 ≤ b → t.cores = s.cores) ∧ (0x20 ≤ b → b < 0x28 → (t.mc (b - 0x18)).online = false) ∧
        ((b < 0x20 ∨ 0x28 ≤ b) → t.mem = s.mem))
    let ended (t : State) (c : Code) : Prop := (t.mbox f m).state = 2 ∧ (t.mbox f m).status = c
    let told (t : State) (c : Code) : Prop := ∃ o bs, t.out = o ++ [.oob (leBytes c 2 ++ bs)]
    (asked → x.arg 0 % 4 = 0 → calm → ∃ t, exec (.resetCompute f m) s = .next t ∧ t.answer = .ok [] ∧ ended t 0 ∧ compute t 3 0) ∧
    (asked → x.arg 0 % 4 = 1 → ∃ t, exec (.resetFull f m) s = .next t ∧ t.answer = .ok [] ∧ full t 1 3 0) ∧
    (asked → x.arg 0 % 4 = 2 → bits (x.arg 0) 15 8 = b → block (.resetBlock f m) b 3 ended) ∧
    (r.supply = true → arg.toNat < 2 ^ 16 → bits arg.toNat 7 2 = 0 →
      (arg.toNat % 4 = 0 → calm → ∃ t, exec (.oobReset arg) s = .next t ∧ t.answer = .ok [] ∧ compute t 4 0) ∧
      (arg.toNat % 4 = 1 → ∃ t, exec (.oobReset arg) s = .next t ∧ t.answer = .ok [] ∧ full t 1 4 0) ∧
      (arg.toNat % 4 = 2 → bits arg.toNat 15 8 = b → block (.oobReset arg) b 4 told) ∧
      (arg.toNat % 4 = 3 → ∃ t, exec (.oobReset arg) s = .next t ∧ t.answer = .refused Err.oobForm ∧ told t Err.oobForm ∧ t.rst = r ∧
        t.cores = s.cores)) ∧
    (r.blockBusy = some b → s.blockDone b = true → ∃ t, exec .blockResetDone s = .next t ∧ t.answer = .ok [] ∧
      t.rst = { r with blockBusy := none } ∧ (0x20 ≤ b → b < 0x28 → (t.mc (b - 0x18)).online = true) ∧
      { t with rst := s.rst, mcs := s.mcs, answer := s.answer } = s) ∧
    (s.running = true → 5 ≤ r.stage → r.stage ≤ 6 → pk.aux = 0x10 → Arrives s pk h n → pk.ty = tyMgmt → resetForm pk = true →
      (s.resetAuth pk = true → pk.f 0 1 = 1 → ∃ t, exec (.remoteReset pk) s = .next t ∧ t.answer = .ok [] ∧ t.cores = [] ∧ t.mem.bytes = [] ∧
        cause t 1 5 pk.src ∧ t.mgmt.lastNonce = BitVec.ofNat 64 (pk.f 8 8)) ∧
      (s.resetAuth pk = true → pk.f 0 1 = 0 → r.stage = 6 → ∃ t, exec (.remoteReset pk) s = .next t ∧ t.answer = .ok [] ∧
        cause t 2 5 pk.src ∧ t.rst.restarting = true ∧ t.mgmt.lastNonce = BitVec.ofNat 64 (pk.f 8 8)) ∧
      (s.resetAuth pk = false → ∃ t, exec (.remoteReset pk) s = .next t ∧ t.answer = .refused Err.remoteResetRefused ∧
        t.mgmt.lastNonce = s.mgmt.lastNonce ∧ t.rst.kind = r.kind ∧ t.rst.stage = r.stage ∧ t.cores = s.cores ∧ t.mem = s.mem ∧
        (r.err = false → t.rst.err = true ∧ t.rst.errCode = Err.remoteResetRefused))) ∧
    (s.running = true → (calm → ∃ t, exec .dispatchWatchdog s = .next t ∧ t.answer = .ok [] ∧ compute t 7 0) ∧
      (1 ≤ r.stage → r.stage ≤ 5 → ∃ t, exec .dispatchWatchdog s = .next t ∧ t.answer = .ok [] ∧ full t 1 6 0 ∧
        t.rst.failCount = min 3 (r.failCount + 1))) ∧
    (s.running = true → r.restarting = true →
      ((s.mgmt.fw.map (·.digest)) = some dig → (∀ e ∈ s.host.mboxes, e.2.armed = none) → ∃ t, exec (.dispatchRestart dig) s = .next t ∧
        t.answer = .ok [] ∧ t.rst.restarting = false ∧ t.mem = s.mem ∧ t.cores = s.cores ∧
        ∀ g < 9, ∀ j < 64, (s.mbox g j).state = 1 → (t.mbox g j).state = 2 ∧ (t.mbox g j).status = Err.streamAborted) ∧
      ((s.mgmt.fw.map (·.digest)) ≠ some dig → ∃ t, exec (.dispatchRestart dig) s = .next t ∧ t.answer = .refused Err.fwHash ∧
        full t 1 r.source r.remoteId)) ∧
    (r.supply = true → r.quenched = false →
      (∃ t, exec .coolantLoss s = .next t ∧ t.answer = .ok [] ∧ full t 1 2 0 ∧ t.rst.quenched = true ∧ t.rst.coolantOk = false ∧
        t.pwr.quenchCause = 1) ∧
      ∃ t, exec .thermtrip s = .next t ∧ t.answer = .ok [] ∧ full t 1 2 0 ∧ t.rst.quenched = true ∧ t.rst.tripLow = true ∧
        t.pwr.quenchCause = 2) ∧
    (r.supply = true → r.quenched = true → r.since + 1000000000 ≤ s.now →
      Makes .quenchRecovery s { s with rst := { r with quenched := false, coolantOk := true, tripLow := false } }) ∧
    (r.supply = true → ∀ i ∈ [Instr.inputUndervoltage, .inputOvervoltage], ∃ t, exec i s = .next t ∧ t.answer = .ok [] ∧
      t.rst.supply = false ∧ t.cores = [] ∧ t.mem.bytes = [] ∧ t.pwr.on = 0 ∧ t.mgmt.flash = s.mgmt.flash ∧ t.mgmt.fuseFw = s.mgmt.fuseFw ∧
      t.rst.mirror = r.mirror) ∧
    (r.supply = false → ∃ t, exec .powerOn s = .next t ∧ t.answer = .ok [] ∧ t.rst.supply = true ∧ cause t 0 0 0 ∧ t.rst.stage = 0 ∧
      t.rst.retain = r.mirror ∧ t.cores = [] ∧ t.mem.bytes = [] ∧ t.rst.stretch ≠ none) ∧
    (r.supply = true → ∃ t, exec .perstN s = .next t ∧ t.answer = .ok [] ∧ full t 1 1 0 ∧ t.mgmt.standby = false) ∧
    (r.stretch = some y → r.supply = true → y.at' + 1000000 ≤ s.now →
      (y.kind = 2 → Makes .resetRelease s { s with rst := { r with stretch := none } }) ∧
      (y.kind ≠ 2 → r.quenched = false → r.coolantOk = true → r.tripLow = false → ∃ t, exec .resetRelease s = .next t ∧ t.answer = .ok [] ∧
        t.rst.stretch = none ∧ t.rst.stage = (if r.banked then 7 else 0) ∧ t.rst.rstOutLow = false ∧ t.mgmt.standby = y.standby ∧
        t.mem = s.mem ∧ t.cores = s.cores))

/-- R305, R344, R347 to R353, R361, R368 to R370: start-up: an image delivered at stage EARLY is verified, and starts or is refused by the first check
that it fails; the stages go on as their conditions hold; an attempt that does not reach full service in 30 s is a failed start, and the
third banks the module; a minute of full service clears the count and blows the fuses; deep standby is a full reset that ends asleep. -/
def Obligations.StartUpRuns : Prop :=
  ∀ (s : State) (f m a : Nat) (x : Mbox) (image : List Byte) (i : FwInfo) (c : Code),
    let r := s.rst
    let g := s.mgmt
    let delivered (t : State) : Prop := t.mgmt.image = some image ∧ t.rst.stage = 1 ∧ t.rst.attempt = some s.now ∧ t.mem = s.mem ∧ t.cores = s.cores
    let asleep (t : State) (b : Bool) : Prop := t.cores = [] ∧ t.mem.bytes = [] ∧ t.rst.kind = 1 ∧ t.rst.source = 4 ∧ t.rst.stage = 0 ∧
      ∃ z, t.rst.stretch = some z ∧ z.standby = b
    let stays (t : State) : Prop := t.mem = s.mem ∧ t.cores = s.cores ∧ t.parts = s.parts ∧ t.sync = s.sync ∧ t.fab = s.fab ∧ t.rst.stage = r.stage ∧
      t.rst.kind = r.kind
    let word (o n : Nat) : Nat := wordAt image o n
    let sized : Prop := word 0x18 4 = image.length ∧ word 0x1C 4 + sigSize ≤ image.length ∧ image.length ≤ 48 * 2 ^ 20
    let device : Prop := word 6 2 = 0x9600 ∧ word 8 1 = 0xB0 ∧ word 9 1 = 1
    let keyed : Prop := g.keyOk image 0x100 (BitVec.ofNat 8 (word 0x0D 1)) = true
    let fresh : Prop := g.fuseKey ≤ word 0x0D 1 ∧ g.fuseFw ≤ word 0x0C 1
    let verified : Prop := Config.mldsaOk (slice image 0xB20 pubSize) (digestBytes (image.take (image.length - sigSize)))
      (image.drop (image.length - sigSize)) = true
    (InMailbox s f m 0x10 x → image.length = bits (x.arg 1) 31 0 →
      (r.stage = 0 → ∃ t, exec (.fwLoad f m image) s = .next t ∧ t.answer = .ok [] ∧ Begun t f m ∧ delivered t ∧ t.mgmt.fwFrom = some (f, m)) ∧
      (r.stage ≠ 0 → MailboxRefused (.fwLoad f m image) s f m x Err.fwBusy 0 fun t => stays t ∧ t.mgmt.image = g.image ∧
        (g.err = false → t.mgmt.err = true ∧ t.mgmt.errCode = Err.fwBusy))) ∧
    (s.running = true →
      (r.stage = 0 → ∃ t, exec (.pldmFwUpdate image) s = .next t ∧ t.answer = .ok [] ∧ delivered t ∧ t.mgmt.fwFrom = none) ∧
      (1 ≤ r.stage → r.stage ≤ 5 → ∃ t, exec (.pldmFwUpdate image) s = .next t ∧ t.answer = .refused Err.fwBusy ∧ stays t ∧
        t.mgmt.image = g.image)) ∧
    (g.image = some image → s.running = true → r.stage = 1 →
      (g.fwCheck image = none → ∃ t, exec .fwVerify s = .next t ∧ t.answer = .ok [] ∧ t.rst.stage = 2 ∧ t.mgmt.fw = some (fwInfoOf image) ∧
        t.mgmt.image = none ∧ t.host.fwVersion = BitVec.ofNat 64 (word 0x10 8) ∧
        t.host.offered = BitVec.ofNat 256 (word 0x20 32) &&& siliconFeatures ∧ (g.fwFrom = some (f, m) → (s.mbox f m).state = 1 →
          (t.mbox f m).state = 2 ∧ (t.mbox f m).status = 0)) ∧
      (g.fwCheck image = some c → ∃ t, exec .fwVerify s = .next t ∧ t.answer = .refused c ∧ t.rst.stage = 0 ∧ t.rst.attempt = none ∧
        t.mgmt.image = none ∧ t.mgmt.fw = g.fw ∧ t.mem = s.mem ∧ (g.err = false → t.mgmt.err = true ∧ t.mgmt.errCode = c) ∧
        (g.fwFrom = some (f, m) → (s.mbox f m).state = 1 → (t.mbox f m).state = 2 ∧ (t.mbox f m).status = c))) ∧
    ((¬ sized → g.fwCheck image = some Err.fwSize) ∧ (sized → fwFormatOk image = false → g.fwCheck image = some Err.fwFormat) ∧
      (sized → fwFormatOk image = true → (¬ device → g.fwCheck image = some Err.fwDevice) ∧
        (device → ¬ keyed → g.fwCheck image = some Err.fwKey) ∧ (device → keyed → ¬ fresh → g.fwCheck image = some Err.fwRollback) ∧
        (device → keyed → fresh → ¬ verified → g.fwCheck image = some Err.fwSignature) ∧
        (device → keyed → fresh → verified → g.fwCheck image = none))) ∧
    (s.running = true →
      (r.stage = 2 → ∃ t, exec .stageAdvance s = .next t ∧ t.answer = .ok [] ∧ t.rst.stage = 3 ∧ t.host.linkFast = true ∧
        (∀ d < 16, t.pwr.req.getLsbD (32 + d) = true) ∧ t.mem = s.mem ∧ t.cores = s.cores) ∧
      (r.stage = 3 → s.memoryReady = true → ∃ t, exec .stageAdvance s = .next t ∧ t.answer = .ok [] ∧ t.rst.stage = 4 ∧ t.mem = s.mem) ∧
      (r.stage = 3 → s.memoryReady = false → exec .stageAdvance s = .next { s with answer := .idle }) ∧
      (r.stage = 5 → (∀ e < 6, (s.opt.engines.get {} e).calDone = true) → ∃ t, exec .stageAdvance s = .next t ∧ t.answer = .ok [] ∧
        t.rst.stage = 6 ∧ t.rst.attempt = none ∧ t.rst.fullMs = (s.now - r.released) / 1000000 ∧ t.mem = s.mem) ∧
      (r.attempt = some a → 1 ≤ r.stage → r.stage ≤ 5 → max r.released a + 30000000000 ≤ s.now → ∃ t, exec .startTimeout s = .next t ∧
        t.answer = .ok [] ∧ t.rst.failCount = min 3 (r.failCount + 1) ∧ t.rst.lastStage = r.stage ∧ t.rst.stage = 0 ∧ t.rst.kind = 1 ∧
        t.rst.source = 6 ∧ t.rst.banked = (r.banked || decide (2 ≤ r.failCount)) ∧ t.cores = [] ∧ t.mem.bytes = []) ∧
      (s.minuteFull = true → Makes .failCountClear s { s with rst := { r with failCount := 0 } }) ∧
      (s.minuteFull = true → g.fw = some i → i.advance = true → (g.fuseFw < i.fwSvn ∨ g.fuseKey < i.keySvn) →
        ∃ t, exec .svnAdvance s = .next t ∧ t.answer = .ok [] ∧ t.mgmt.fuseFw = max g.fuseFw (min 127 i.fwSvn) ∧
          t.mgmt.fuseKey = max g.fuseKey (min 15 i.keySvn) ∧ stays t)) ∧
    (r.supply = true →
      (∃ t, exec .hearthWatchdog s = .next t ∧ t.answer = .ok [] ∧ stays t ∧ (r.err = false → t.rst.err = true ∧ t.rst.errCode = Err.watchdog)) ∧
      (∃ t, exec .hearthEcc s = .next t ∧ t.answer = .ok [] ∧ stays t ∧ (g.err = false → t.mgmt.err = true ∧ t.mgmt.errCode = 0x0D10) ∧
        (r.err = false → t.rst.err = true ∧ t.rst.errCode = Err.watchdog)) ∧
      (r.retain ≠ r.mirror → Makes .bootRetainMirror s { s with rst := { r with mirror := r.retain } }) ∧
      (∃ t, exec .oobStandby s = .next t ∧ t.answer = .ok [] ∧ asleep t true) ∧
      (g.standby = true → ∃ t, exec .oobWake s = .next t ∧ t.answer = .ok [] ∧ asleep t false) ∧
      (g.standby = false → ∃ t, exec .oobWake s = .next t ∧ t.answer = .ok [] ∧ stays t))

/-- R353, R358 to R360, R363, R365, R366, R371 to R373, R376, R378, R379: the management processor: what it answers over its bus, and a malformed request
with OOB_FORM; sensors and rails as they are read; SPDM with an identity or without; link keys; a debug token, which erases the secrets and
resets the module; the log, a record at a time; the mirror of telemetry; ALERT_CAUSE, cleared by writing 1. -/
def Obligations.ManagementActs : Prop :=
  ∀ (s : State) (arg first : Word) (count id k d : Nat) (key : BitVec 256) (token : List Byte) (rails : List Nat) (w : Who) (v : BitVec 32)
      (rec1 : LogRec) (rest : List LogRec) (i : Nat),
    let g := s.mgmt
    let r := s.rst
    let recs := ((g.flash ++ g.queue).filter fun e => decide (max first.toNat g.logOldest ≤ e.index)).take count
    let tells (c : Instr) (data : List Byte) (u : State) : Prop :=
      exec c s = .next { u with out := u.out ++ [.oob (leBytes 0 2 ++ data)], answer := .ok data }
    let malformed (c : Instr) : Prop := ∃ t o, exec c s = .next t ∧ t.answer = .refused Err.oobForm ∧
      t.out = o ++ [.oob (leBytes Err.oobForm 2)] ∧ t.rst = r ∧ t.pwr = s.pwr ∧ t.mem = s.mem ∧ t.cores = s.cores ∧
      (g.err = false → t.mgmt.err = true ∧ t.mgmt.errCode = Err.oobForm)
    let keyed (j : Nat) : Tab (Option Nat) := g.keys.set none j (some key.toNat)
    let alert := leBytes g.alert 4 ++ leBytes (g.attnCode + g.attnCount * 2 ^ 16) 4
    let watts := arg.toNat
    (r.supply = true →
      tells .oobBankClear [] { s with rst := { r with failCount := 0, banked := false } } ∧
      (700 ≤ watts → watts ≤ 2200 → ∃ t, exec (.oobSetCap arg) s = .next t ∧ t.answer = .ok (leBytes watts 2) ∧ t.pwr.cap = watts ∧
        t.pwr.level = s.pwr.level ∧ t.mem = s.mem ∧ t.cores = s.cores) ∧
      (watts < 700 → ∃ t, exec (.oobSetCap arg) s = .next t ∧ t.answer = .refused Err.capRange ∧ t.pwr.cap = 700 ∧ t.mem = s.mem) ∧
      (2 ^ 16 ≤ watts → malformed (.oobSetCap arg)) ∧
      (1 ≤ count → count ≤ 16 → tells (.oobLogRead first count) (wordBytes [(recs.getLast?.map fun e => e.index + 1).getD first.toNat] ++
        recs.flatMap LogRec.bytes) s) ∧
      (count = 0 ∨ 16 < count → malformed (.oobLogRead first count)) ∧
      tells (.oobAlert 0) alert s ∧ tells (.oobAlert 1) alert { s with mgmt := { g with attention := false, quench := false } } ∧
      (2 ≤ arg.toNat → malformed (.oobAlert arg)) ∧
      (∃ t n, exec .oobDebugChallenge s = .next t ∧ t.mgmt.dbgNonce = some n ∧ t.answer = .ok (leBytes n.toNat 32) ∧ t.freeIdx = s.freeIdx + 4 ∧
        t.mem = s.mem ∧ t.cores = s.cores ∧ t.rst = r) ∧
      (1 ≤ id → id ≤ 72 → tells (.pldmSensorRead id) (intBytes (g.temps.get 0 (id - 1)) 2) s) ∧
      (101 ≤ id → id ≤ 162 → tells (.pldmSensorRead id) (leBytes (g.rails.get 0 (id - 101)) 2) s) ∧
      tells (.pldmSensorRead 200) (leBytes s.pwr.power 2) s ∧
      (id ∉ List.range' 1 72 ++ List.range' 101 62 ++ [200] → malformed (.pldmSensorRead id))) ∧
    (r.supply = true →
      (1 ≤ i → i ≤ 7 → exec (.spdmRequest (.measurements false i)) s = .next { s with answer := .ok (s.measurement i) }) ∧
      (g.identity = false → ∀ q ∈ [Spdm.certificate, .challenge, .measurements true i],
        ∃ t, exec (.spdmRequest q) s = .next t ∧ t.answer = .refused Err.identityAbsent ∧ t.rst = r ∧ t.mem = s.mem ∧ t.cores = s.cores ∧
          (g.err = false → t.mgmt.err = true ∧ t.mgmt.errCode = Err.identityAbsent)) ∧
      (g.identity = true → 1 ≤ i → i ≤ 7 → ∃ t bs, exec (.spdmRequest (.measurements true i)) s = .next t ∧
        t.answer = .ok (s.measurement i ++ bs) ∧ { t with freeIdx := s.freeIdx, answer := s.answer } = s) ∧
      (rails.length = 62 → (∀ e ∈ rails, e < 2 ^ 16) → ∃ t, exec (.voltageSample rails) s = .next t ∧ t.answer = .ok [] ∧ t.mem = s.mem ∧
        t.cores = s.cores ∧ t.pwr = s.pwr ∧ (∀ j e, rails[j]? = some e → t.mgmt.rails.get 0 j = e) ∧
        ((∀ j e, rails[j]? = some e → s.domainOn j = false ∨ railOut e (s.nominal j) = false) → t.mgmt.err = g.err ∧ t.mgmt.queue = g.queue) ∧
        (∀ e, rails[d]? = some e → s.domainOn d = true → railOut e (s.nominal d) = true → g.railLogged.get false d = false →
          ((∀ t0, g.railBad.get none d = some t0 → t0 + 100000 ≤ s.now → t.mgmt.railLogged.get false d = true ∧ t.mgmt.err = true) ∧
            (g.railBad.get none d = none → t.mgmt.railBad.get none d = some s.now ∧ t.mgmt.railLogged.get false d = false)))) ∧
      (g.queue = rec1 :: rest → g.flash.length < flashSize → g.dropPend = 0 →
        Makes .logProgram s { s with mgmt := { g with flash := g.flash ++ [rec1], queue := rest } }) ∧
      (∃ t, exec .telemetryRefresh s = .next t ∧ t.answer = .ok [] ∧ t.mgmt.mirrorSeq = g.mirrorSeq + 2 ∧
        { t with mgmt := { t.mgmt with mirror := g.mirror, mirrorSeq := g.mirrorSeq }, answer := s.answer } = s ∧
        t.mgmt.mirror.getList 0 0x290 8 = leBytes s.pwr.energy.toNat 8 ∧ t.mgmt.mirror.getList 0 0x18 8 = leBytes s.sync.ft.toNat 8) ∧
      (g.tokenOk token = true → ∃ t, exec (.debugToken token) s = .next t ∧ t.answer = .ok [] ∧ t.mgmt.seed = false ∧ t.mgmt.identity = false ∧
        t.mgmt.keys = [] ∧ t.mgmt.mgmtKey = none ∧ t.mgmt.debugNext = true ∧ t.rst.kind = 1 ∧ t.cores = [] ∧ t.mem.bytes = []) ∧
      (g.tokenOk token = false → ∃ t, exec (.debugToken token) s = .next t ∧ t.answer = .refused Err.debugToken ∧ t.mgmt.dbgNonce = none ∧
        t.mgmt.seed = g.seed ∧ t.mgmt.keys = g.keys ∧ t.rst = r ∧ t.mem = s.mem ∧ t.cores = s.cores)) ∧
    (s.running = true →
      Makes (.keySet .management key) s { s with mgmt := { g with mgmtKey := some key.toNat } } ∧
      (k < 36 → (∃ t, exec (.keySet (.linkTx k) key) s = .next t ∧ t.answer = .ok [] ∧ t.mgmt.keys = keyed (2 * k) ∧ (t.link k).keyTx = true ∧
          (t.link k).groupsTx = 0 ∧ (t.link k).keyRx = (s.link k).keyRx ∧ t.mem = s.mem ∧ t.cores = s.cores) ∧
        ∃ t, exec (.keySet (.linkRx k) key) s = .next t ∧ t.answer = .ok [] ∧ t.mgmt.keys = keyed (2 * k + 1) ∧ (t.link k).keyRx = true ∧
          (t.link k).keyTx = (s.link k).keyTx ∧ t.mem = s.mem ∧ t.cores = s.cores)) ∧
    ((w.remote = false → (w.unit = unitHearth ∨ w.unit = unitHost) → Makes (.alertCauseWrite w v) s { s with mgmt := { g with
        attention := g.attention && !v.getLsbD 1, quench := g.quench && !v.getLsbD 2 } }) ∧
      ((w.remote = true ∨ (w.unit ≠ unitHearth ∧ w.unit ≠ unitHost)) → ∃ t, exec (.alertCauseWrite w v) s = .next t ∧
        t.answer = .refused Err.mgmtWrite ∧ t.mgmt.attention = g.attention ∧ t.mgmt.quench = g.quench ∧
        (g.err = false → t.mgmt.err = true ∧ t.mgmt.errCode = Err.mgmtWrite)))

/-- What `State.reset` holds where the manual gives a value: the module at stage EARLY, no command waiting, nothing listed in memory, cores that
run nothing with every general register at 0 (a value of log entry 1), fabric time FREE and at 0, no region, group or watch, ladder level OP0 at full
duty, cap 2,000 W, thresholds 100 °C and 108 °C. -/
def Obligations.ResetIsStageEarly : Prop :=
  let s := State.reset
  s.pending = [] ∧ s.mem.wf = true ∧ s.mem.bytes = [] ∧ s.service = 0 ∧ s.rst.stage = 0 ∧ s.rst.stretch = none ∧
    (∀ c, (s.core c).run = .idle ∧ (s.core c).err = false ∧ (s.core c).block = none ∧ (s.core c).launches = [] ∧ (s.core c).flights = [] ∧
      ∀ r, gRead (s.core c) r = 0) ∧
    (∀ p, (s.part p).valid = false ∧ (s.part p).halted = false ∧ (s.part p).mem.regions = []) ∧
    s.sync.ftState = .free ∧ s.sync.ft = 0 ∧ s.sync.groups = [] ∧ s.sync.watches = [] ∧ s.fab.id = 0 ∧ s.rake.valid = false ∧
    s.pwr.op = 0 ∧ s.pwr.duty = 8 ∧ s.pwr.cap = 2000 ∧ s.pwr.tWarn = 100 ∧ s.pwr.tThrottle = 108 ∧
    (∀ f m, (s.mbox f m).state = 0 ∧ (s.fn f).session = false)

/-- Memory keeps its canonical form over every command: the byte, poison, cache and held-request tables stay sorted, and none lists what an
unlisted key reads as. -/
def Obligations.StepsKeepMemoryCanonical : Prop := ∀ s t : State, s.mem.wf = true → step s = .next t → t.mem.wf = true
end

