-- ==== Sys2Proof/Laws/Tab.lean ====
section
/-! SUPPORT. Laws of sparse tables: a read after a write, other keys unchanged, the canonical form kept. -/

namespace Sys2Proof

variable {α : Type}

theorem Tab.get_drop_same (d : α) (t : Tab α) (k : Nat) : (t.drop k).get d k = d := by
  induction t with
  | nil => rfl
  | cons e r ih =>
    by_cases h : e.1 = k
    · simpa [Tab.drop, List.filter_cons, h] using ih
    · simpa [Tab.drop, List.filter_cons, h, Tab.get] using ih

theorem Tab.get_drop_other (d : α) (t : Tab α) {j k : Nat} (h : j ≠ k) : (t.drop k).get d j = t.get d j := by
  induction t with
  | nil => rfl
  | cons e r ih =>
    by_cases hk : e.1 = k
    · have : e.1 ≠ j := fun c => h (c ▸ hk)
      simpa [Tab.drop, List.filter_cons, hk, Tab.get, h.symm] using ih
    · by_cases hj : e.1 = j
      · simp [Tab.drop, List.filter_cons, hk, Tab.get, hj, h]
      · simpa [Tab.drop, List.filter_cons, hk, Tab.get, hj] using ih

theorem Tab.get_ins_same (d : α) (t : Tab α) (k : Nat) (v : α) (h : ∀ e ∈ t, e.1 ≠ k) : (t.ins k v).get d k = v := by
  induction t with
  | nil => simp [Tab.ins, Tab.get]
  | cons e r ih =>
    have he : e.1 ≠ k := h e (by simp)
    have hr := ih fun x hx => h x (by simp [hx])
    unfold Tab.ins
    split <;> simp [Tab.get, he, hr]

theorem Tab.get_ins_other (d : α) (t : Tab α) {j k : Nat} (v : α) (h : j ≠ k) : (t.ins k v).get d j = t.get d j := by
  induction t with
  | nil => simp [Tab.ins, Tab.get, h.symm]
  | cons e r ih =>
    unfold Tab.ins
    split
    · simp [Tab.get, h.symm]
    · by_cases hj : e.1 = j <;> simp [Tab.get, hj, ih]

theorem Tab.mem_drop {t : Tab α} {k : Nat} {e : Nat × α} : e ∈ t.drop k ↔ e ∈ t ∧ e.1 ≠ k := by
  simp [Tab.drop]

variable [DecidableEq α]

/-- A read of the key just written gives the value written. -/
@[simp] theorem Tab.get_set_same (d : α) (t : Tab α) (k : Nat) (v : α) : (t.set d k v).get d k = v := by
  unfold Tab.set
  split
  · rename_i h; rw [Tab.get_drop_same, h]
  · exact Tab.get_ins_same d _ k v fun e he => (Tab.mem_drop.1 he).2

/-- A write leaves every other key alone. -/
theorem Tab.get_set_other (d : α) (t : Tab α) {j k : Nat} (v : α) (h : j ≠ k) : (t.set d k v).get d j = t.get d j := by
  unfold Tab.set
  split
  · exact Tab.get_drop_other d t h
  · rw [Tab.get_ins_other d _ v h, Tab.get_drop_other d t h]

theorem Tab.get_set (d : α) (t : Tab α) (j k : Nat) (v : α) :
    (t.set d k v).get d j = if j = k then v else t.get d j := by
  by_cases h : j = k
  · subst h; simp
  · simp [h, Tab.get_set_other d t v h]

@[simp] theorem Tab.get_mod_same (d : α) (t : Tab α) (k : Nat) (f : α → α) : (t.mod d k f).get d k = f (t.get d k) := by
  simp [Tab.mod]

theorem Tab.get_mod_other (d : α) (t : Tab α) {j k : Nat} (f : α → α) (h : j ≠ k) :
    (t.mod d k f).get d j = t.get d j := by
  simp [Tab.mod, Tab.get_set_other d t _ h]

theorem Tab.get_mod (d : α) (t : Tab α) (j k : Nat) (f : α → α) :
    (t.mod d k f).get d j = if j = k then f (t.get d k) else t.get d j := by
  by_cases h : j = k
  · subst h; simp
  · simp [h, Tab.get_mod_other d t f h]

/-- A write of consecutive keys, read back at any key. -/
theorem Tab.get_setList (d : α) (vs : List α) : ∀ (t : Tab α) (k j : Nat),
    (t.setList d k vs).get d j = if k ≤ j then (vs[j - k]?).getD (t.get d j) else t.get d j := by
  induction vs with
  | nil => intro t k j; simp [Tab.setList]
  | cons v vs ih =>
    intro t k j
    rw [Tab.setList, ih, Tab.get_set]
    by_cases h1 : j = k
    · subst h1; simp
    · by_cases h2 : k + 1 ≤ j
      · have h3 : k ≤ j := by omega
        have h4 : j - k = (j - (k + 1)) + 1 := by omega
        simp [h1, h2, h3, h4]
      · have h3 : ¬ k ≤ j := by omega
        simp [h1, h2, h3]

/-- The keys rise strictly and no entry equals the default. -/
theorem Tab.wf_iff (d : α) (t : Tab α) :
    t.wf d = true ↔ t.Pairwise (fun a b => a.1 < b.1) ∧ ∀ e ∈ t, e.2 ≠ d := by
  simp [Tab.wf]

@[simp] theorem Tab.wf_nil (d : α) : Tab.wf d ([] : Tab α) = true := rfl

/-- Forgetting entries keeps the canonical form. -/
theorem Tab.wf_filter {d : α} {t : Tab α} (p : Nat × α → Bool) (h : t.wf d = true) : Tab.wf d (t.filter p) = true := by
  rw [Tab.wf_iff] at *
  exact ⟨h.1.filter _, fun e he => h.2 e (List.mem_of_mem_filter he)⟩

theorem Tab.wf_drop {d : α} {t : Tab α} (k : Nat) (h : t.wf d = true) : (t.drop k).wf d = true := Tab.wf_filter _ h

theorem Tab.wf_clearRange {d : α} {t : Tab α} (lo hi : Nat) (h : t.wf d = true) : (t.clearRange lo hi).wf d = true :=
  Tab.wf_filter _ h

omit [DecidableEq α] in
theorem Tab.mem_ins {k : Nat} {v : α} {e : Nat × α} : ∀ {t : Tab α}, e ∈ t.ins k v ↔ e = (k, v) ∨ e ∈ t
  | [] => by simp [Tab.ins]
  | (a, x) :: r => by
    unfold Tab.ins
    split
    · simp
    · simp only [List.mem_cons, Tab.mem_ins (t := r)]
      constructor <;> (rintro (h | h | h) <;> simp [h])

omit [DecidableEq α] in
theorem Tab.ins_sorted (k : Nat) (v : α) : ∀ (t : Tab α), t.Pairwise (fun a b => a.1 < b.1) → (∀ e ∈ t, e.1 ≠ k) →
    (t.ins k v).Pairwise fun a b => a.1 < b.1
  | [], _, _ => by simp [Tab.ins]
  | (a, x) :: r, h, hk => by
    have hak : a ≠ k := hk (a, x) (by simp)
    obtain ⟨h1, h2⟩ := List.pairwise_cons.1 h
    unfold Tab.ins
    split
    · rename_i hlt
      refine List.pairwise_cons.2 ⟨fun e he => ?_, h⟩
      rcases List.mem_cons.1 he with rfl | he
      · exact hlt
      · exact lt_trans hlt (h1 e he)
    · rename_i hlt
      refine List.pairwise_cons.2 ⟨fun e he => ?_, Tab.ins_sorted k v r h2 fun e he => hk e (by simp [he])⟩
      rcases Tab.mem_ins.1 he with rfl | he
      · show a < k
        omega
      · exact h1 e he

/-- A write keeps the canonical form. -/
theorem Tab.wf_set {d : α} {t : Tab α} (k : Nat) (v : α) (h : t.wf d = true) : (t.set d k v).wf d = true := by
  unfold Tab.set
  split
  · exact Tab.wf_drop k h
  · rename_i hv
    rw [Tab.wf_iff] at *
    refine ⟨Tab.ins_sorted k v _ (h.1.filter _) fun e he => (Tab.mem_drop.1 he).2, fun e he => ?_⟩
    rcases Tab.mem_ins.1 he with rfl | he
    · exact hv
    · exact h.2 e (Tab.mem_drop.1 he).1

theorem Tab.wf_mod {d : α} {t : Tab α} (k : Nat) (f : α → α) (h : t.wf d = true) : (t.mod d k f).wf d = true :=
  Tab.wf_set k _ h

theorem Tab.wf_setList {d : α} : ∀ (vs : List α) {t : Tab α} (k : Nat), t.wf d = true → (t.setList d k vs).wf d = true
  | [], _, _, h => h
  | v :: vs, _, k, h => Tab.wf_setList vs (k + 1) (Tab.wf_set k v h)

end Sys2Proof
end

