-- ==== Sys2Proof/Laws/State.lean ====
section
/-! SUPPORT. What each update of a part of the state leaves in each field, so that no proof unfolds a record update. -/

namespace Sys2Proof.Machine

@[simp] theorem State.modCore_pending (s : State) (c : Nat) (f : Core → Core) : (s.modCore c f).pending = s.pending := rfl
@[simp] theorem State.modCore_mem (s : State) (c : Nat) (f : Core → Core) : (s.modCore c f).mem = s.mem := rfl
@[simp] theorem State.modCore_mcs (s : State) (c : Nat) (f : Core → Core) : (s.modCore c f).mcs = s.mcs := rfl
@[simp] theorem State.modCore_parts (s : State) (c : Nat) (f : Core → Core) : (s.modCore c f).parts = s.parts := rfl
@[simp] theorem State.modCore_sync (s : State) (c : Nat) (f : Core → Core) : (s.modCore c f).sync = s.sync := rfl
@[simp] theorem State.modCore_fab (s : State) (c : Nat) (f : Core → Core) : (s.modCore c f).fab = s.fab := rfl
@[simp] theorem State.modCore_opt (s : State) (c : Nat) (f : Core → Core) : (s.modCore c f).opt = s.opt := rfl
@[simp] theorem State.modCore_rake (s : State) (c : Nat) (f : Core → Core) : (s.modCore c f).rake = s.rake := rfl
@[simp] theorem State.modCore_host (s : State) (c : Nat) (f : Core → Core) : (s.modCore c f).host = s.host := rfl
@[simp] theorem State.modCore_pwr (s : State) (c : Nat) (f : Core → Core) : (s.modCore c f).pwr = s.pwr := rfl
@[simp] theorem State.modCore_rst (s : State) (c : Nat) (f : Core → Core) : (s.modCore c f).rst = s.rst := rfl
@[simp] theorem State.modCore_mgmt (s : State) (c : Nat) (f : Core → Core) : (s.modCore c f).mgmt = s.mgmt := rfl
@[simp] theorem State.modCore_freeIdx (s : State) (c : Nat) (f : Core → Core) : (s.modCore c f).freeIdx = s.freeIdx := rfl
@[simp] theorem State.modCore_answer (s : State) (c : Nat) (f : Core → Core) : (s.modCore c f).answer = s.answer := rfl
@[simp] theorem State.modCore_out (s : State) (c : Nat) (f : Core → Core) : (s.modCore c f).out = s.out := rfl

@[simp] theorem State.modPart_pending (s : State) (p : Nat) (f : Part → Part) : (s.modPart p f).pending = s.pending := rfl
@[simp] theorem State.modPart_cores (s : State) (p : Nat) (f : Part → Part) : (s.modPart p f).cores = s.cores := rfl
@[simp] theorem State.modPart_mem (s : State) (p : Nat) (f : Part → Part) : (s.modPart p f).mem = s.mem := rfl
@[simp] theorem State.modPart_mcs (s : State) (p : Nat) (f : Part → Part) : (s.modPart p f).mcs = s.mcs := rfl
@[simp] theorem State.modPart_sync (s : State) (p : Nat) (f : Part → Part) : (s.modPart p f).sync = s.sync := rfl
@[simp] theorem State.modPart_fab (s : State) (p : Nat) (f : Part → Part) : (s.modPart p f).fab = s.fab := rfl
@[simp] theorem State.modPart_opt (s : State) (p : Nat) (f : Part → Part) : (s.modPart p f).opt = s.opt := rfl
@[simp] theorem State.modPart_rake (s : State) (p : Nat) (f : Part → Part) : (s.modPart p f).rake = s.rake := rfl
@[simp] theorem State.modPart_host (s : State) (p : Nat) (f : Part → Part) : (s.modPart p f).host = s.host := rfl
@[simp] theorem State.modPart_pwr (s : State) (p : Nat) (f : Part → Part) : (s.modPart p f).pwr = s.pwr := rfl
@[simp] theorem State.modPart_rst (s : State) (p : Nat) (f : Part → Part) : (s.modPart p f).rst = s.rst := rfl
@[simp] theorem State.modPart_mgmt (s : State) (p : Nat) (f : Part → Part) : (s.modPart p f).mgmt = s.mgmt := rfl
@[simp] theorem State.modPart_freeIdx (s : State) (p : Nat) (f : Part → Part) : (s.modPart p f).freeIdx = s.freeIdx := rfl
@[simp] theorem State.modPart_answer (s : State) (p : Nat) (f : Part → Part) : (s.modPart p f).answer = s.answer := rfl
@[simp] theorem State.modPart_out (s : State) (p : Nat) (f : Part → Part) : (s.modPart p f).out = s.out := rfl

@[simp] theorem State.modMc_pending (s : State) (i : Nat) (f : Mc → Mc) : (s.modMc i f).pending = s.pending := rfl
@[simp] theorem State.modMc_cores (s : State) (i : Nat) (f : Mc → Mc) : (s.modMc i f).cores = s.cores := rfl
@[simp] theorem State.modMc_mem (s : State) (i : Nat) (f : Mc → Mc) : (s.modMc i f).mem = s.mem := rfl
@[simp] theorem State.modMc_parts (s : State) (i : Nat) (f : Mc → Mc) : (s.modMc i f).parts = s.parts := rfl
@[simp] theorem State.modMc_sync (s : State) (i : Nat) (f : Mc → Mc) : (s.modMc i f).sync = s.sync := rfl
@[simp] theorem State.modMc_fab (s : State) (i : Nat) (f : Mc → Mc) : (s.modMc i f).fab = s.fab := rfl
@[simp] theorem State.modMc_opt (s : State) (i : Nat) (f : Mc → Mc) : (s.modMc i f).opt = s.opt := rfl
@[simp] theorem State.modMc_rake (s : State) (i : Nat) (f : Mc → Mc) : (s.modMc i f).rake = s.rake := rfl
@[simp] theorem State.modMc_host (s : State) (i : Nat) (f : Mc → Mc) : (s.modMc i f).host = s.host := rfl
@[simp] theorem State.modMc_pwr (s : State) (i : Nat) (f : Mc → Mc) : (s.modMc i f).pwr = s.pwr := rfl
@[simp] theorem State.modMc_rst (s : State) (i : Nat) (f : Mc → Mc) : (s.modMc i f).rst = s.rst := rfl
@[simp] theorem State.modMc_mgmt (s : State) (i : Nat) (f : Mc → Mc) : (s.modMc i f).mgmt = s.mgmt := rfl
@[simp] theorem State.modMc_freeIdx (s : State) (i : Nat) (f : Mc → Mc) : (s.modMc i f).freeIdx = s.freeIdx := rfl
@[simp] theorem State.modMc_answer (s : State) (i : Nat) (f : Mc → Mc) : (s.modMc i f).answer = s.answer := rfl
@[simp] theorem State.modMc_out (s : State) (i : Nat) (f : Mc → Mc) : (s.modMc i f).out = s.out := rfl

@[simp] theorem State.modFn_pending (s : State) (i : Nat) (f : Fn → Fn) : (s.modFn i f).pending = s.pending := rfl
@[simp] theorem State.modFn_cores (s : State) (i : Nat) (f : Fn → Fn) : (s.modFn i f).cores = s.cores := rfl
@[simp] theorem State.modFn_mem (s : State) (i : Nat) (f : Fn → Fn) : (s.modFn i f).mem = s.mem := rfl
@[simp] theorem State.modFn_mcs (s : State) (i : Nat) (f : Fn → Fn) : (s.modFn i f).mcs = s.mcs := rfl
@[simp] theorem State.modFn_parts (s : State) (i : Nat) (f : Fn → Fn) : (s.modFn i f).parts = s.parts := rfl
@[simp] theorem State.modFn_sync (s : State) (i : Nat) (f : Fn → Fn) : (s.modFn i f).sync = s.sync := rfl
@[simp] theorem State.modFn_fab (s : State) (i : Nat) (f : Fn → Fn) : (s.modFn i f).fab = s.fab := rfl
@[simp] theorem State.modFn_opt (s : State) (i : Nat) (f : Fn → Fn) : (s.modFn i f).opt = s.opt := rfl
@[simp] theorem State.modFn_rake (s : State) (i : Nat) (f : Fn → Fn) : (s.modFn i f).rake = s.rake := rfl
@[simp] theorem State.modFn_pwr (s : State) (i : Nat) (f : Fn → Fn) : (s.modFn i f).pwr = s.pwr := rfl
@[simp] theorem State.modFn_rst (s : State) (i : Nat) (f : Fn → Fn) : (s.modFn i f).rst = s.rst := rfl
@[simp] theorem State.modFn_mgmt (s : State) (i : Nat) (f : Fn → Fn) : (s.modFn i f).mgmt = s.mgmt := rfl
@[simp] theorem State.modFn_freeIdx (s : State) (i : Nat) (f : Fn → Fn) : (s.modFn i f).freeIdx = s.freeIdx := rfl
@[simp] theorem State.modFn_answer (s : State) (i : Nat) (f : Fn → Fn) : (s.modFn i f).answer = s.answer := rfl
@[simp] theorem State.modFn_out (s : State) (i : Nat) (f : Fn → Fn) : (s.modFn i f).out = s.out := rfl

@[simp] theorem State.modMbox_pending (s : State) (i m : Nat) (f : Mbox → Mbox) : (s.modMbox i m f).pending = s.pending := rfl
@[simp] theorem State.modMbox_cores (s : State) (i m : Nat) (f : Mbox → Mbox) : (s.modMbox i m f).cores = s.cores := rfl
@[simp] theorem State.modMbox_mem (s : State) (i m : Nat) (f : Mbox → Mbox) : (s.modMbox i m f).mem = s.mem := rfl
@[simp] theorem State.modMbox_mcs (s : State) (i m : Nat) (f : Mbox → Mbox) : (s.modMbox i m f).mcs = s.mcs := rfl
@[simp] theorem State.modMbox_parts (s : State) (i m : Nat) (f : Mbox → Mbox) : (s.modMbox i m f).parts = s.parts := rfl
@[simp] theorem State.modMbox_sync (s : State) (i m : Nat) (f : Mbox → Mbox) : (s.modMbox i m f).sync = s.sync := rfl
@[simp] theorem State.modMbox_fab (s : State) (i m : Nat) (f : Mbox → Mbox) : (s.modMbox i m f).fab = s.fab := rfl
@[simp] theorem State.modMbox_opt (s : State) (i m : Nat) (f : Mbox → Mbox) : (s.modMbox i m f).opt = s.opt := rfl
@[simp] theorem State.modMbox_rake (s : State) (i m : Nat) (f : Mbox → Mbox) : (s.modMbox i m f).rake = s.rake := rfl
@[simp] theorem State.modMbox_pwr (s : State) (i m : Nat) (f : Mbox → Mbox) : (s.modMbox i m f).pwr = s.pwr := rfl
@[simp] theorem State.modMbox_rst (s : State) (i m : Nat) (f : Mbox → Mbox) : (s.modMbox i m f).rst = s.rst := rfl
@[simp] theorem State.modMbox_mgmt (s : State) (i m : Nat) (f : Mbox → Mbox) : (s.modMbox i m f).mgmt = s.mgmt := rfl
@[simp] theorem State.modMbox_freeIdx (s : State) (i m : Nat) (f : Mbox → Mbox) : (s.modMbox i m f).freeIdx = s.freeIdx := rfl
@[simp] theorem State.modMbox_answer (s : State) (i m : Nat) (f : Mbox → Mbox) : (s.modMbox i m f).answer = s.answer := rfl
@[simp] theorem State.modMbox_out (s : State) (i m : Nat) (f : Mbox → Mbox) : (s.modMbox i m f).out = s.out := rfl

@[simp] theorem State.modLink_pending (s : State) (k : Nat) (f : OLink → OLink) : (s.modLink k f).pending = s.pending := rfl
@[simp] theorem State.modLink_cores (s : State) (k : Nat) (f : OLink → OLink) : (s.modLink k f).cores = s.cores := rfl
@[simp] theorem State.modLink_mem (s : State) (k : Nat) (f : OLink → OLink) : (s.modLink k f).mem = s.mem := rfl
@[simp] theorem State.modLink_mcs (s : State) (k : Nat) (f : OLink → OLink) : (s.modLink k f).mcs = s.mcs := rfl
@[simp] theorem State.modLink_parts (s : State) (k : Nat) (f : OLink → OLink) : (s.modLink k f).parts = s.parts := rfl
@[simp] theorem State.modLink_sync (s : State) (k : Nat) (f : OLink → OLink) : (s.modLink k f).sync = s.sync := rfl
@[simp] theorem State.modLink_fab (s : State) (k : Nat) (f : OLink → OLink) : (s.modLink k f).fab = s.fab := rfl
@[simp] theorem State.modLink_rake (s : State) (k : Nat) (f : OLink → OLink) : (s.modLink k f).rake = s.rake := rfl
@[simp] theorem State.modLink_host (s : State) (k : Nat) (f : OLink → OLink) : (s.modLink k f).host = s.host := rfl
@[simp] theorem State.modLink_pwr (s : State) (k : Nat) (f : OLink → OLink) : (s.modLink k f).pwr = s.pwr := rfl
@[simp] theorem State.modLink_rst (s : State) (k : Nat) (f : OLink → OLink) : (s.modLink k f).rst = s.rst := rfl
@[simp] theorem State.modLink_mgmt (s : State) (k : Nat) (f : OLink → OLink) : (s.modLink k f).mgmt = s.mgmt := rfl
@[simp] theorem State.modLink_freeIdx (s : State) (k : Nat) (f : OLink → OLink) : (s.modLink k f).freeIdx = s.freeIdx := rfl
@[simp] theorem State.modLink_answer (s : State) (k : Nat) (f : OLink → OLink) : (s.modLink k f).answer = s.answer := rfl
@[simp] theorem State.modLink_out (s : State) (k : Nat) (f : OLink → OLink) : (s.modLink k f).out = s.out := rfl

@[simp] theorem State.modPort_pending (s : State) (k : Nat) (f : Port → Port) : (s.modPort k f).pending = s.pending := rfl
@[simp] theorem State.modPort_cores (s : State) (k : Nat) (f : Port → Port) : (s.modPort k f).cores = s.cores := rfl
@[simp] theorem State.modPort_mem (s : State) (k : Nat) (f : Port → Port) : (s.modPort k f).mem = s.mem := rfl
@[simp] theorem State.modPort_mcs (s : State) (k : Nat) (f : Port → Port) : (s.modPort k f).mcs = s.mcs := rfl
@[simp] theorem State.modPort_parts (s : State) (k : Nat) (f : Port → Port) : (s.modPort k f).parts = s.parts := rfl
@[simp] theorem State.modPort_sync (s : State) (k : Nat) (f : Port → Port) : (s.modPort k f).sync = s.sync := rfl
@[simp] theorem State.modPort_opt (s : State) (k : Nat) (f : Port → Port) : (s.modPort k f).opt = s.opt := rfl
@[simp] theorem State.modPort_rake (s : State) (k : Nat) (f : Port → Port) : (s.modPort k f).rake = s.rake := rfl
@[simp] theorem State.modPort_host (s : State) (k : Nat) (f : Port → Port) : (s.modPort k f).host = s.host := rfl
@[simp] theorem State.modPort_pwr (s : State) (k : Nat) (f : Port → Port) : (s.modPort k f).pwr = s.pwr := rfl
@[simp] theorem State.modPort_rst (s : State) (k : Nat) (f : Port → Port) : (s.modPort k f).rst = s.rst := rfl
@[simp] theorem State.modPort_mgmt (s : State) (k : Nat) (f : Port → Port) : (s.modPort k f).mgmt = s.mgmt := rfl
@[simp] theorem State.modPort_freeIdx (s : State) (k : Nat) (f : Port → Port) : (s.modPort k f).freeIdx = s.freeIdx := rfl
@[simp] theorem State.modPort_answer (s : State) (k : Nat) (f : Port → Port) : (s.modPort k f).answer = s.answer := rfl
@[simp] theorem State.modPort_out (s : State) (k : Nat) (f : Port → Port) : (s.modPort k f).out = s.out := rfl

@[simp] theorem State.modSnap_pending (s : State) (p : Nat) (f : Snap → Snap) : (s.modSnap p f).pending = s.pending := rfl
@[simp] theorem State.modSnap_cores (s : State) (p : Nat) (f : Snap → Snap) : (s.modSnap p f).cores = s.cores := rfl
@[simp] theorem State.modSnap_mem (s : State) (p : Nat) (f : Snap → Snap) : (s.modSnap p f).mem = s.mem := rfl
@[simp] theorem State.modSnap_mcs (s : State) (p : Nat) (f : Snap → Snap) : (s.modSnap p f).mcs = s.mcs := rfl
@[simp] theorem State.modSnap_sync (s : State) (p : Nat) (f : Snap → Snap) : (s.modSnap p f).sync = s.sync := rfl
@[simp] theorem State.modSnap_fab (s : State) (p : Nat) (f : Snap → Snap) : (s.modSnap p f).fab = s.fab := rfl
@[simp] theorem State.modSnap_opt (s : State) (p : Nat) (f : Snap → Snap) : (s.modSnap p f).opt = s.opt := rfl
@[simp] theorem State.modSnap_rake (s : State) (p : Nat) (f : Snap → Snap) : (s.modSnap p f).rake = s.rake := rfl
@[simp] theorem State.modSnap_host (s : State) (p : Nat) (f : Snap → Snap) : (s.modSnap p f).host = s.host := rfl
@[simp] theorem State.modSnap_pwr (s : State) (p : Nat) (f : Snap → Snap) : (s.modSnap p f).pwr = s.pwr := rfl
@[simp] theorem State.modSnap_rst (s : State) (p : Nat) (f : Snap → Snap) : (s.modSnap p f).rst = s.rst := rfl
@[simp] theorem State.modSnap_mgmt (s : State) (p : Nat) (f : Snap → Snap) : (s.modSnap p f).mgmt = s.mgmt := rfl
@[simp] theorem State.modSnap_freeIdx (s : State) (p : Nat) (f : Snap → Snap) : (s.modSnap p f).freeIdx = s.freeIdx := rfl
@[simp] theorem State.modSnap_answer (s : State) (p : Nat) (f : Snap → Snap) : (s.modSnap p f).answer = s.answer := rfl
@[simp] theorem State.modSnap_out (s : State) (p : Nat) (f : Snap → Snap) : (s.modSnap p f).out = s.out := rfl

@[simp] theorem State.modStream_pending (s : State) (p k : Nat) (f : Stream → Stream) : (s.modStream p k f).pending = s.pending := rfl
@[simp] theorem State.modStream_cores (s : State) (p k : Nat) (f : Stream → Stream) : (s.modStream p k f).cores = s.cores := rfl
@[simp] theorem State.modStream_mem (s : State) (p k : Nat) (f : Stream → Stream) : (s.modStream p k f).mem = s.mem := rfl
@[simp] theorem State.modStream_mcs (s : State) (p k : Nat) (f : Stream → Stream) : (s.modStream p k f).mcs = s.mcs := rfl
@[simp] theorem State.modStream_sync (s : State) (p k : Nat) (f : Stream → Stream) : (s.modStream p k f).sync = s.sync := rfl
@[simp] theorem State.modStream_fab (s : State) (p k : Nat) (f : Stream → Stream) : (s.modStream p k f).fab = s.fab := rfl
@[simp] theorem State.modStream_opt (s : State) (p k : Nat) (f : Stream → Stream) : (s.modStream p k f).opt = s.opt := rfl
@[simp] theorem State.modStream_rake (s : State) (p k : Nat) (f : Stream → Stream) : (s.modStream p k f).rake = s.rake := rfl
@[simp] theorem State.modStream_host (s : State) (p k : Nat) (f : Stream → Stream) : (s.modStream p k f).host = s.host := rfl
@[simp] theorem State.modStream_pwr (s : State) (p k : Nat) (f : Stream → Stream) : (s.modStream p k f).pwr = s.pwr := rfl
@[simp] theorem State.modStream_rst (s : State) (p k : Nat) (f : Stream → Stream) : (s.modStream p k f).rst = s.rst := rfl
@[simp] theorem State.modStream_mgmt (s : State) (p k : Nat) (f : Stream → Stream) : (s.modStream p k f).mgmt = s.mgmt := rfl
@[simp] theorem State.modStream_freeIdx (s : State) (p k : Nat) (f : Stream → Stream) : (s.modStream p k f).freeIdx = s.freeIdx := rfl
@[simp] theorem State.modStream_answer (s : State) (p k : Nat) (f : Stream → Stream) : (s.modStream p k f).answer = s.answer := rfl
@[simp] theorem State.modStream_out (s : State) (p k : Nat) (f : Stream → Stream) : (s.modStream p k f).out = s.out := rfl

@[simp] theorem State.modMover_pending (s : State) (c m : Nat) (f : Mover → Mover) : (s.modMover c m f).pending = s.pending := rfl
@[simp] theorem State.modMover_mem (s : State) (c m : Nat) (f : Mover → Mover) : (s.modMover c m f).mem = s.mem := rfl
@[simp] theorem State.modMover_mcs (s : State) (c m : Nat) (f : Mover → Mover) : (s.modMover c m f).mcs = s.mcs := rfl
@[simp] theorem State.modMover_parts (s : State) (c m : Nat) (f : Mover → Mover) : (s.modMover c m f).parts = s.parts := rfl
@[simp] theorem State.modMover_sync (s : State) (c m : Nat) (f : Mover → Mover) : (s.modMover c m f).sync = s.sync := rfl
@[simp] theorem State.modMover_fab (s : State) (c m : Nat) (f : Mover → Mover) : (s.modMover c m f).fab = s.fab := rfl
@[simp] theorem State.modMover_opt (s : State) (c m : Nat) (f : Mover → Mover) : (s.modMover c m f).opt = s.opt := rfl
@[simp] theorem State.modMover_rake (s : State) (c m : Nat) (f : Mover → Mover) : (s.modMover c m f).rake = s.rake := rfl
@[simp] theorem State.modMover_host (s : State) (c m : Nat) (f : Mover → Mover) : (s.modMover c m f).host = s.host := rfl
@[simp] theorem State.modMover_pwr (s : State) (c m : Nat) (f : Mover → Mover) : (s.modMover c m f).pwr = s.pwr := rfl
@[simp] theorem State.modMover_rst (s : State) (c m : Nat) (f : Mover → Mover) : (s.modMover c m f).rst = s.rst := rfl
@[simp] theorem State.modMover_mgmt (s : State) (c m : Nat) (f : Mover → Mover) : (s.modMover c m f).mgmt = s.mgmt := rfl
@[simp] theorem State.modMover_freeIdx (s : State) (c m : Nat) (f : Mover → Mover) : (s.modMover c m f).freeIdx = s.freeIdx := rfl
@[simp] theorem State.modMover_answer (s : State) (c m : Nat) (f : Mover → Mover) : (s.modMover c m f).answer = s.answer := rfl
@[simp] theorem State.modMover_out (s : State) (c m : Nat) (f : Mover → Mover) : (s.modMover c m f).out = s.out := rfl

@[simp] theorem State.modCore_part (s : State) (c : Nat) (f : Core → Core) (p' : Nat) : (s.modCore c f).part p' = s.part p' := rfl
@[simp] theorem State.modCore_mc (s : State) (c : Nat) (f : Core → Core) (i' : Nat) : (s.modCore c f).mc i' = s.mc i' := rfl
@[simp] theorem State.modCore_fn (s : State) (c : Nat) (f : Core → Core) (i' : Nat) : (s.modCore c f).fn i' = s.fn i' := rfl
@[simp] theorem State.modCore_mbox (s : State) (c : Nat) (f : Core → Core) (i' m' : Nat) : (s.modCore c f).mbox i' m' = s.mbox i' m' := rfl
@[simp] theorem State.modCore_link (s : State) (c : Nat) (f : Core → Core) (k' : Nat) : (s.modCore c f).link k' = s.link k' := rfl
@[simp] theorem State.modCore_port (s : State) (c : Nat) (f : Core → Core) (k' : Nat) : (s.modCore c f).port k' = s.port k' := rfl
@[simp] theorem State.modCore_stream (s : State) (c : Nat) (f : Core → Core) (p' k' : Nat) :
    (s.modCore c f).stream p' k' = s.stream p' k' := rfl
@[simp] theorem State.modCore_service (s : State) (c : Nat) (f : Core → Core) : (s.modCore c f).service = s.service := rfl
@[simp] theorem State.modCore_now (s : State) (c : Nat) (f : Core → Core) : (s.modCore c f).now = s.now := rfl
@[simp] theorem State.modCore_domainOn (s : State) (c : Nat) (f : Core → Core) (i' : Nat) :
    (s.modCore c f).domainOn i' = s.domainOn i' := rfl

@[simp] theorem State.modPart_core (s : State) (p : Nat) (f : Part → Part) (c' : Nat) : (s.modPart p f).core c' = s.core c' := rfl
@[simp] theorem State.modPart_mc (s : State) (p : Nat) (f : Part → Part) (i' : Nat) : (s.modPart p f).mc i' = s.mc i' := rfl
@[simp] theorem State.modPart_fn (s : State) (p : Nat) (f : Part → Part) (i' : Nat) : (s.modPart p f).fn i' = s.fn i' := rfl
@[simp] theorem State.modPart_mbox (s : State) (p : Nat) (f : Part → Part) (i' m' : Nat) : (s.modPart p f).mbox i' m' = s.mbox i' m' := rfl
@[simp] theorem State.modPart_link (s : State) (p : Nat) (f : Part → Part) (k' : Nat) : (s.modPart p f).link k' = s.link k' := rfl
@[simp] theorem State.modPart_port (s : State) (p : Nat) (f : Part → Part) (k' : Nat) : (s.modPart p f).port k' = s.port k' := rfl
@[simp] theorem State.modPart_mover (s : State) (p : Nat) (f : Part → Part) (c' m' : Nat) :
    (s.modPart p f).mover c' m' = s.mover c' m' := rfl
@[simp] theorem State.modPart_service (s : State) (p : Nat) (f : Part → Part) : (s.modPart p f).service = s.service := rfl
@[simp] theorem State.modPart_now (s : State) (p : Nat) (f : Part → Part) : (s.modPart p f).now = s.now := rfl
@[simp] theorem State.modPart_domainOn (s : State) (p : Nat) (f : Part → Part) (i' : Nat) :
    (s.modPart p f).domainOn i' = s.domainOn i' := rfl

@[simp] theorem State.modMc_core (s : State) (i : Nat) (f : Mc → Mc) (c' : Nat) : (s.modMc i f).core c' = s.core c' := rfl
@[simp] theorem State.modMc_part (s : State) (i : Nat) (f : Mc → Mc) (p' : Nat) : (s.modMc i f).part p' = s.part p' := rfl
@[simp] theorem State.modMc_fn (s : State) (i : Nat) (f : Mc → Mc) (i' : Nat) : (s.modMc i f).fn i' = s.fn i' := rfl
@[simp] theorem State.modMc_mbox (s : State) (i : Nat) (f : Mc → Mc) (i' m' : Nat) : (s.modMc i f).mbox i' m' = s.mbox i' m' := rfl
@[simp] theorem State.modMc_link (s : State) (i : Nat) (f : Mc → Mc) (k' : Nat) : (s.modMc i f).link k' = s.link k' := rfl
@[simp] theorem State.modMc_port (s : State) (i : Nat) (f : Mc → Mc) (k' : Nat) : (s.modMc i f).port k' = s.port k' := rfl
@[simp] theorem State.modMc_stream (s : State) (i : Nat) (f : Mc → Mc) (p' k' : Nat) : (s.modMc i f).stream p' k' = s.stream p' k' := rfl
@[simp] theorem State.modMc_mover (s : State) (i : Nat) (f : Mc → Mc) (c' m' : Nat) : (s.modMc i f).mover c' m' = s.mover c' m' := rfl
@[simp] theorem State.modMc_service (s : State) (i : Nat) (f : Mc → Mc) : (s.modMc i f).service = s.service := rfl
@[simp] theorem State.modMc_now (s : State) (i : Nat) (f : Mc → Mc) : (s.modMc i f).now = s.now := rfl
@[simp] theorem State.modMc_domainOn (s : State) (i : Nat) (f : Mc → Mc) (i' : Nat) : (s.modMc i f).domainOn i' = s.domainOn i' := rfl

@[simp] theorem State.modFn_core (s : State) (i : Nat) (f : Fn → Fn) (c' : Nat) : (s.modFn i f).core c' = s.core c' := rfl
@[simp] theorem State.modFn_part (s : State) (i : Nat) (f : Fn → Fn) (p' : Nat) : (s.modFn i f).part p' = s.part p' := rfl
@[simp] theorem State.modFn_mc (s : State) (i : Nat) (f : Fn → Fn) (i' : Nat) : (s.modFn i f).mc i' = s.mc i' := rfl
@[simp] theorem State.modFn_link (s : State) (i : Nat) (f : Fn → Fn) (k' : Nat) : (s.modFn i f).link k' = s.link k' := rfl
@[simp] theorem State.modFn_port (s : State) (i : Nat) (f : Fn → Fn) (k' : Nat) : (s.modFn i f).port k' = s.port k' := rfl
@[simp] theorem State.modFn_stream (s : State) (i : Nat) (f : Fn → Fn) (p' k' : Nat) : (s.modFn i f).stream p' k' = s.stream p' k' := rfl
@[simp] theorem State.modFn_mover (s : State) (i : Nat) (f : Fn → Fn) (c' m' : Nat) : (s.modFn i f).mover c' m' = s.mover c' m' := rfl
@[simp] theorem State.modFn_service (s : State) (i : Nat) (f : Fn → Fn) : (s.modFn i f).service = s.service := rfl
@[simp] theorem State.modFn_now (s : State) (i : Nat) (f : Fn → Fn) : (s.modFn i f).now = s.now := rfl
@[simp] theorem State.modFn_domainOn (s : State) (i : Nat) (f : Fn → Fn) (i' : Nat) : (s.modFn i f).domainOn i' = s.domainOn i' := rfl

@[simp] theorem State.modMbox_core (s : State) (i m : Nat) (f : Mbox → Mbox) (c' : Nat) : (s.modMbox i m f).core c' = s.core c' := rfl
@[simp] theorem State.modMbox_part (s : State) (i m : Nat) (f : Mbox → Mbox) (p' : Nat) : (s.modMbox i m f).part p' = s.part p' := rfl
@[simp] theorem State.modMbox_mc (s : State) (i m : Nat) (f : Mbox → Mbox) (i' : Nat) : (s.modMbox i m f).mc i' = s.mc i' := rfl
@[simp] theorem State.modMbox_link (s : State) (i m : Nat) (f : Mbox → Mbox) (k' : Nat) : (s.modMbox i m f).link k' = s.link k' := rfl
@[simp] theorem State.modMbox_port (s : State) (i m : Nat) (f : Mbox → Mbox) (k' : Nat) : (s.modMbox i m f).port k' = s.port k' := rfl
@[simp] theorem State.modMbox_stream (s : State) (i m : Nat) (f : Mbox → Mbox) (p' k' : Nat) :
    (s.modMbox i m f).stream p' k' = s.stream p' k' := rfl
@[simp] theorem State.modMbox_mover (s : State) (i m : Nat) (f : Mbox → Mbox) (c' m' : Nat) :
    (s.modMbox i m f).mover c' m' = s.mover c' m' := rfl
@[simp] theorem State.modMbox_service (s : State) (i m : Nat) (f : Mbox → Mbox) : (s.modMbox i m f).service = s.service := rfl
@[simp] theorem State.modMbox_now (s : State) (i m : Nat) (f : Mbox → Mbox) : (s.modMbox i m f).now = s.now := rfl
@[simp] theorem State.modMbox_domainOn (s : State) (i m : Nat) (f : Mbox → Mbox) (i' : Nat) :
    (s.modMbox i m f).domainOn i' = s.domainOn i' := rfl

@[simp] theorem State.modLink_core (s : State) (k : Nat) (f : OLink → OLink) (c' : Nat) : (s.modLink k f).core c' = s.core c' := rfl
@[simp] theorem State.modLink_part (s : State) (k : Nat) (f : OLink → OLink) (p' : Nat) : (s.modLink k f).part p' = s.part p' := rfl
@[simp] theorem State.modLink_mc (s : State) (k : Nat) (f : OLink → OLink) (i' : Nat) : (s.modLink k f).mc i' = s.mc i' := rfl
@[simp] theorem State.modLink_fn (s : State) (k : Nat) (f : OLink → OLink) (i' : Nat) : (s.modLink k f).fn i' = s.fn i' := rfl
@[simp] theorem State.modLink_mbox (s : State) (k : Nat) (f : OLink → OLink) (i' m' : Nat) :
    (s.modLink k f).mbox i' m' = s.mbox i' m' := rfl
@[simp] theorem State.modLink_port (s : State) (k : Nat) (f : OLink → OLink) (k' : Nat) : (s.modLink k f).port k' = s.port k' := rfl
@[simp] theorem State.modLink_stream (s : State) (k : Nat) (f : OLink → OLink) (p' k' : Nat) :
    (s.modLink k f).stream p' k' = s.stream p' k' := rfl
@[simp] theorem State.modLink_mover (s : State) (k : Nat) (f : OLink → OLink) (c' m' : Nat) :
    (s.modLink k f).mover c' m' = s.mover c' m' := rfl
@[simp] theorem State.modLink_service (s : State) (k : Nat) (f : OLink → OLink) : (s.modLink k f).service = s.service := rfl
@[simp] theorem State.modLink_now (s : State) (k : Nat) (f : OLink → OLink) : (s.modLink k f).now = s.now := rfl
@[simp] theorem State.modLink_domainOn (s : State) (k : Nat) (f : OLink → OLink) (i' : Nat) :
    (s.modLink k f).domainOn i' = s.domainOn i' := rfl

@[simp] theorem State.modPort_core (s : State) (k : Nat) (f : Port → Port) (c' : Nat) : (s.modPort k f).core c' = s.core c' := rfl
@[simp] theorem State.modPort_part (s : State) (k : Nat) (f : Port → Port) (p' : Nat) : (s.modPort k f).part p' = s.part p' := rfl
@[simp] theorem State.modPort_mc (s : State) (k : Nat) (f : Port → Port) (i' : Nat) : (s.modPort k f).mc i' = s.mc i' := rfl
@[simp] theorem State.modPort_fn (s : State) (k : Nat) (f : Port → Port) (i' : Nat) : (s.modPort k f).fn i' = s.fn i' := rfl
@[simp] theorem State.modPort_mbox (s : State) (k : Nat) (f : Port → Port) (i' m' : Nat) : (s.modPort k f).mbox i' m' = s.mbox i' m' := rfl
@[simp] theorem State.modPort_link (s : State) (k : Nat) (f : Port → Port) (k' : Nat) : (s.modPort k f).link k' = s.link k' := rfl
@[simp] theorem State.modPort_stream (s : State) (k : Nat) (f : Port → Port) (p' k' : Nat) :
    (s.modPort k f).stream p' k' = s.stream p' k' := rfl
@[simp] theorem State.modPort_mover (s : State) (k : Nat) (f : Port → Port) (c' m' : Nat) :
    (s.modPort k f).mover c' m' = s.mover c' m' := rfl
@[simp] theorem State.modPort_service (s : State) (k : Nat) (f : Port → Port) : (s.modPort k f).service = s.service := rfl
@[simp] theorem State.modPort_now (s : State) (k : Nat) (f : Port → Port) : (s.modPort k f).now = s.now := rfl
@[simp] theorem State.modPort_domainOn (s : State) (k : Nat) (f : Port → Port) (i' : Nat) :
    (s.modPort k f).domainOn i' = s.domainOn i' := rfl

@[simp] theorem State.modSnap_core (s : State) (p : Nat) (f : Snap → Snap) (c' : Nat) : (s.modSnap p f).core c' = s.core c' := rfl
@[simp] theorem State.modSnap_mc (s : State) (p : Nat) (f : Snap → Snap) (i' : Nat) : (s.modSnap p f).mc i' = s.mc i' := rfl
@[simp] theorem State.modSnap_fn (s : State) (p : Nat) (f : Snap → Snap) (i' : Nat) : (s.modSnap p f).fn i' = s.fn i' := rfl
@[simp] theorem State.modSnap_mbox (s : State) (p : Nat) (f : Snap → Snap) (i' m' : Nat) : (s.modSnap p f).mbox i' m' = s.mbox i' m' := rfl
@[simp] theorem State.modSnap_link (s : State) (p : Nat) (f : Snap → Snap) (k' : Nat) : (s.modSnap p f).link k' = s.link k' := rfl
@[simp] theorem State.modSnap_port (s : State) (p : Nat) (f : Snap → Snap) (k' : Nat) : (s.modSnap p f).port k' = s.port k' := rfl
@[simp] theorem State.modSnap_mover (s : State) (p : Nat) (f : Snap → Snap) (c' m' : Nat) :
    (s.modSnap p f).mover c' m' = s.mover c' m' := rfl
@[simp] theorem State.modSnap_service (s : State) (p : Nat) (f : Snap → Snap) : (s.modSnap p f).service = s.service := rfl
@[simp] theorem State.modSnap_now (s : State) (p : Nat) (f : Snap → Snap) : (s.modSnap p f).now = s.now := rfl
@[simp] theorem State.modSnap_domainOn (s : State) (p : Nat) (f : Snap → Snap) (i' : Nat) :
    (s.modSnap p f).domainOn i' = s.domainOn i' := rfl

@[simp] theorem State.modStream_core (s : State) (p k : Nat) (f : Stream → Stream) (c' : Nat) :
    (s.modStream p k f).core c' = s.core c' := rfl
@[simp] theorem State.modStream_mc (s : State) (p k : Nat) (f : Stream → Stream) (i' : Nat) : (s.modStream p k f).mc i' = s.mc i' := rfl
@[simp] theorem State.modStream_fn (s : State) (p k : Nat) (f : Stream → Stream) (i' : Nat) : (s.modStream p k f).fn i' = s.fn i' := rfl
@[simp] theorem State.modStream_mbox (s : State) (p k : Nat) (f : Stream → Stream) (i' m' : Nat) :
    (s.modStream p k f).mbox i' m' = s.mbox i' m' := rfl
@[simp] theorem State.modStream_link (s : State) (p k : Nat) (f : Stream → Stream) (k' : Nat) :
    (s.modStream p k f).link k' = s.link k' := rfl
@[simp] theorem State.modStream_port (s : State) (p k : Nat) (f : Stream → Stream) (k' : Nat) :
    (s.modStream p k f).port k' = s.port k' := rfl
@[simp] theorem State.modStream_mover (s : State) (p k : Nat) (f : Stream → Stream) (c' m' : Nat) :
    (s.modStream p k f).mover c' m' = s.mover c' m' := rfl
@[simp] theorem State.modStream_service (s : State) (p k : Nat) (f : Stream → Stream) : (s.modStream p k f).service = s.service := rfl
@[simp] theorem State.modStream_now (s : State) (p k : Nat) (f : Stream → Stream) : (s.modStream p k f).now = s.now := rfl
@[simp] theorem State.modStream_domainOn (s : State) (p k : Nat) (f : Stream → Stream) (i' : Nat) :
    (s.modStream p k f).domainOn i' = s.domainOn i' := rfl

@[simp] theorem State.modMover_part (s : State) (c m : Nat) (f : Mover → Mover) (p' : Nat) : (s.modMover c m f).part p' = s.part p' := rfl
@[simp] theorem State.modMover_mc (s : State) (c m : Nat) (f : Mover → Mover) (i' : Nat) : (s.modMover c m f).mc i' = s.mc i' := rfl
@[simp] theorem State.modMover_fn (s : State) (c m : Nat) (f : Mover → Mover) (i' : Nat) : (s.modMover c m f).fn i' = s.fn i' := rfl
@[simp] theorem State.modMover_mbox (s : State) (c m : Nat) (f : Mover → Mover) (i' m' : Nat) :
    (s.modMover c m f).mbox i' m' = s.mbox i' m' := rfl
@[simp] theorem State.modMover_link (s : State) (c m : Nat) (f : Mover → Mover) (k' : Nat) : (s.modMover c m f).link k' = s.link k' := rfl
@[simp] theorem State.modMover_port (s : State) (c m : Nat) (f : Mover → Mover) (k' : Nat) : (s.modMover c m f).port k' = s.port k' := rfl
@[simp] theorem State.modMover_stream (s : State) (c m : Nat) (f : Mover → Mover) (p' k' : Nat) :
    (s.modMover c m f).stream p' k' = s.stream p' k' := rfl
@[simp] theorem State.modMover_service (s : State) (c m : Nat) (f : Mover → Mover) : (s.modMover c m f).service = s.service := rfl
@[simp] theorem State.modMover_now (s : State) (c m : Nat) (f : Mover → Mover) : (s.modMover c m f).now = s.now := rfl
@[simp] theorem State.modMover_domainOn (s : State) (c m : Nat) (f : Mover → Mover) (i' : Nat) :
    (s.modMover c m f).domainOn i' = s.domainOn i' := rfl

@[simp] theorem State.modCore_core_same (s : State) (c : Nat) (f : Core → Core) : (s.modCore c f).core c = f (s.core c) :=
  Tab.get_mod_same ..

theorem State.modCore_core_other (s : State) (c c' : Nat) (f : Core → Core) (h : c' ≠ c) : (s.modCore c f).core c' = s.core c' :=
  Tab.get_mod_other _ _ _ h

@[simp] theorem State.modPart_part_same (s : State) (p : Nat) (f : Part → Part) : (s.modPart p f).part p = f (s.part p) :=
  Tab.get_mod_same ..

theorem State.modPart_part_other (s : State) (p p' : Nat) (f : Part → Part) (h : p' ≠ p) : (s.modPart p f).part p' = s.part p' :=
  Tab.get_mod_other _ _ _ h

@[simp] theorem State.modMc_mc_same (s : State) (i : Nat) (f : Mc → Mc) : (s.modMc i f).mc i = f (s.mc i) :=
  Tab.get_mod_same ..

theorem State.modMc_mc_other (s : State) (i i' : Nat) (f : Mc → Mc) (h : i' ≠ i) : (s.modMc i f).mc i' = s.mc i' :=
  Tab.get_mod_other _ _ _ h

@[simp] theorem State.modFn_fn_same (s : State) (i : Nat) (f : Fn → Fn) : (s.modFn i f).fn i = f (s.fn i) :=
  Tab.get_mod_same ..

theorem State.modFn_fn_other (s : State) (i i' : Nat) (f : Fn → Fn) (h : i' ≠ i) : (s.modFn i f).fn i' = s.fn i' :=
  Tab.get_mod_other _ _ _ h

@[simp] theorem State.modLink_link_same (s : State) (k : Nat) (f : OLink → OLink) : (s.modLink k f).link k = f (s.link k) :=
  Tab.get_mod_same ..

theorem State.modLink_link_other (s : State) (k k' : Nat) (f : OLink → OLink) (h : k' ≠ k) : (s.modLink k f).link k' = s.link k' :=
  Tab.get_mod_other _ _ _ h

@[simp] theorem State.modPort_port_same (s : State) (k : Nat) (f : Port → Port) : (s.modPort k f).port k = f (s.port k) :=
  Tab.get_mod_same ..

theorem State.modPort_port_other (s : State) (k k' : Nat) (f : Port → Port) (h : k' ≠ k) : (s.modPort k f).port k' = s.port k' :=
  Tab.get_mod_other _ _ _ h

@[simp] theorem State.modMbox_mbox_same (s : State) (i m : Nat) (f : Mbox → Mbox) :
    (s.modMbox i m f).mbox i m = f (s.mbox i m) := Tab.get_mod_same ..

@[simp] theorem State.modMbox_fn (s : State) (i m : Nat) (f : Mbox → Mbox) (j : Nat) : (s.modMbox i m f).fn j = s.fn j := rfl
@[simp] theorem State.modFn_mbox (s : State) (i : Nat) (f : Fn → Fn) (j m : Nat) : (s.modFn i f).mbox j m = s.mbox j m := rfl

@[simp] theorem State.modStream_stream_same (s : State) (p k : Nat) (f : Stream → Stream) :
    (s.modStream p k f).stream p k = f (s.stream p k) := by
  simp [State.modStream, State.stream, State.modPart, State.part]

@[simp] theorem State.modMover_mover_same (s : State) (c m : Nat) (f : Mover → Mover) :
    (s.modMover c m f).mover c m = f (s.mover c m) := by
  simp [State.modMover, State.mover, State.modCore, State.core]

@[simp] theorem State.modSnap_snap_same (s : State) (p : Nat) (f : Snap → Snap) :
    ((s.modSnap p f).part p).snap = f (s.part p).snap := by
  simp [State.modSnap, State.modPart, State.part]

@[simp] theorem State.free_pending (s : State) : s.free.2.pending = s.pending := rfl
@[simp] theorem State.free_cores (s : State) : s.free.2.cores = s.cores := rfl
@[simp] theorem State.free_mem (s : State) : s.free.2.mem = s.mem := rfl
@[simp] theorem State.free_mcs (s : State) : s.free.2.mcs = s.mcs := rfl
@[simp] theorem State.free_parts (s : State) : s.free.2.parts = s.parts := rfl
@[simp] theorem State.free_sync (s : State) : s.free.2.sync = s.sync := rfl
@[simp] theorem State.free_fab (s : State) : s.free.2.fab = s.fab := rfl
@[simp] theorem State.free_opt (s : State) : s.free.2.opt = s.opt := rfl
@[simp] theorem State.free_rake (s : State) : s.free.2.rake = s.rake := rfl
@[simp] theorem State.free_host (s : State) : s.free.2.host = s.host := rfl
@[simp] theorem State.free_pwr (s : State) : s.free.2.pwr = s.pwr := rfl
@[simp] theorem State.free_rst (s : State) : s.free.2.rst = s.rst := rfl
@[simp] theorem State.free_mgmt (s : State) : s.free.2.mgmt = s.mgmt := rfl
@[simp] theorem State.free_answer (s : State) : s.free.2.answer = s.answer := rfl
@[simp] theorem State.free_out (s : State) : s.free.2.out = s.out := rfl
@[simp] theorem State.free_freeIdx (s : State) : s.free.2.freeIdx = s.freeIdx + 1 := rfl

/-- The outcome of an answered command. -/
@[simp] theorem done_eq (a : Ans) (s : State) : done a s = .next { s with answer := a } := rfl
@[simp] theorem idle_eq (s : State) : idle s = .next { s with answer := .idle } := rfl
@[simp] theorem served_eq (s : State) : served s = .next { s with answer := .ok [] } := rfl
@[simp] theorem guarded_true (s : State) (x : Step) : guarded true s x = x := rfl
@[simp] theorem guarded_false (s : State) (x : Step) : guarded false s x = idle s := rfl

theorem guarded_of {b : Bool} (h : b = true) (s : State) (x : Step) : guarded b s x = x := by subst h; rfl

end Sys2Proof.Machine
end

