-- ==== Sys2Proof/Laws/Core.lean ====
section
/-! SUPPORT. Issue of bundles: what one slot makes of a core, and so of the module. -/

namespace Sys2Proof

open Sys2Proof.Machine

theorem mayIssue_not_halted {k : Core} (h : k.mayIssue = true) : k.run ≠ .halted := by
  intro c; simp [Core.mayIssue, c] at h

theorem afterBundle_not_halted {o : Option BrPend} {k : Core} (h : k.run ≠ .halted) :
    (afterBundle o k).run ≠ .halted := by
  unfold afterBundle
  split
  · exact h
  · split
    · exact h
    · split
      · exact h
      · dsimp; split <;> simp

/-- A core whose touches met no condition issues as it stands. -/
theorem noLate {k : Core} (h : k.late = []) : k.tookLate = k := by
  unfold Core.tookLate
  rw [← h]

@[simp] theorem squashLimit_nil (s : State) (c : Nat) (x : Site) : s.squashLimit c x [] = [] := by
  unfold State.squashLimit
  split <;> simp

/-- A bundle that meets no condition and asks nothing of the module changes its core alone. -/
theorem issue_core {s : State} {c : Nat} {l : Launch} (h : Ready s c l) (b : Bundle) (hb : (b.mm.wf && b.ve.wf) = true)
    (hf : b.ve.freeUse = 0) (k : Core)
    (hi : issueSlots (s.site c l) b (s.coreAhead c) = { core := k, faults := [], ext := [] })
    (hr : k.run ≠ .halted) :
    s.issue c (some b) = .next { (s.ahead c).modCore c (fun _ => k) with answer := .ok [] } := by
  have h1 := h.before
  have h2 : ((s.settleCore c []).core c).mayIssue = true := h.after
  have h3 : ((s.settleCore c []).core c).block = some l := h.block
  have h4 : ¬ l.bundles ≤ ((s.settleCore c []).core c).pc := by
    have := h.inside
    simp only [State.coreAhead, State.ahead] at this
    omega
  have h5 : ((s.settleCore c []).core c).late = [] := h.late
  have hu : (s.settleCore c []).issueNow c (some b) = (s.ahead c).modCore c (fun _ => k) := by
    unfold State.issueNow
    simp only [h3, h4, if_false, hb, if_true, hf, noLate h5]
    simp only [State.site, State.coreAhead, State.ahead] at hi ⊢
    rw [hi]
    simp [State.takeFaults, h5]
  unfold State.issue
  simp only [h1, h2, if_true, hu]
  simp [hr]

/-- The state after such a bundle. -/
theorem onCore_of {i : Instr} {s : State} {c : Nat} {k : Core}
    (h : exec i s = .next { (s.ahead c).modCore c (fun _ => k) with answer := .ok [] }) : OnCore i s c k :=
  ⟨_, h, rfl, State.modCore_core_same (s.ahead c) c fun _ => k,
    fun d hd => State.modCore_core_other (s.ahead c) c d (fun _ => k) hd, rfl⟩

/-- One slot's command: what the slot makes of the core is what the command does. -/
theorem slotSc_on {s : State} {c : Nat} {l : Launch} (h : Ready s c l) (op : ScOp) (k : Core)
    (hk : issueSc (s.site c l) op { core := s.coreAhead c }
      = { core := { k with issued := k.issued + 1 }, faults := [], ext := [] })
    (hr : k.run ≠ .halted) :
    slotSc c op s = .next { (s.ahead c).modCore c (fun _ => afterSlot (s.coreAhead c) k) with answer := .ok [] } := by
  rw [slotSc, guarded_of (by simpa using h.number)]
  refine issue_core h _ rfl rfl _ ?_ ?_
  · simp [issueSlots, issueVe, issueMm, issueMv, hk, afterSlot]
  · exact afterBundle_not_halted hr

theorem slotMv_on {s : State} {c : Nat} {l : Launch} (h : Ready s c l) (op : MvOp) (k : Core)
    (hk : issueMv (s.site c l) op { core := s.coreAhead c }
      = { core := { k with issued := k.issued + 1 }, faults := [], ext := [] })
    (hr : k.run ≠ .halted) :
    slotMv c op s = .next { (s.ahead c).modCore c (fun _ => afterSlot (s.coreAhead c) k) with answer := .ok [] } := by
  rw [slotMv, guarded_of (by simpa using h.number)]
  refine issue_core h _ rfl rfl _ ?_ ?_
  · simp [issueSlots, issueVe, issueMm, issueSc, hk, afterSlot]
  · exact afterBundle_not_halted hr

theorem slotMm_on {s : State} {c : Nat} {l : Launch} (h : Ready s c l) (op : MmOp) (hw : op.wf = true) (k : Core)
    (hk : issueMm (s.site c l) op { core := s.coreAhead c }
      = { core := { k with issued := k.issued + 1 }, faults := [], ext := [] })
    (hr : k.run ≠ .halted) :
    slotMm c op s = .next { (s.ahead c).modCore c (fun _ => afterSlot (s.coreAhead c) k) with answer := .ok [] } := by
  rw [slotMm, guarded_of (by simpa using h.number)]
  refine issue_core h _ (by simp [hw, VeOp.wf]) rfl _ ?_ ?_
  · simp [issueSlots, issueVe, issueMv, issueSc, hk, afterSlot]
  · exact afterBundle_not_halted hr

theorem slotVe_on {s : State} {c : Nat} {l : Launch} (h : Ready s c l) (op : VeOp) (hw : op.wf = true)
    (hf : op.freeUse = 0) (k : Core)
    (hk : issueVe (s.site c l) op { core := s.coreAhead c }
      = { core := { k with issued := k.issued + 1 }, faults := [], ext := [] })
    (hr : k.run ≠ .halted) :
    slotVe c op s = .next { (s.ahead c).modCore c (fun _ => afterSlot (s.coreAhead c) k) with answer := .ok [] } := by
  rw [slotVe, guarded_of (by simpa using h.number)]
  refine issue_core h _ (by simp [hw, MmOp.wf]) hf _ ?_ ?_
  · simp [issueSlots, issueMm, issueMv, issueSc, hk, afterSlot]
  · exact afterBundle_not_halted hr

/-- No condition among those that do not hold. -/
@[simp] theorem errsOf_nil (x : Site) (n : Nat) : errsOf x n [] = [] := rfl
@[simp] theorem errsOf_false (x : Site) (n : Nat) (c : Code) (l : List (Bool × Code)) :
    errsOf x n ((false, c) :: l) = errsOf x n l := by simp [errsOf]

theorem errsOf_none (x : Site) (n : Nat) (l : List (Bool × Code)) (h : ∀ e ∈ l, e.1 = false) : errsOf x n l = [] := by
  simp only [errsOf, List.map_eq_nil_iff, List.filter_eq_nil_iff]
  intro e he
  simp [h e he]

/-- A slot that meets no condition. -/
theorem commitSlot_ok (i : Iss) (k : Core) (ext : List Ext) :
    commitSlot i [] k ext = { core := { k with issued := k.issued + 1 }, faults := i.faults, ext := i.ext ++ ext } := rfl

/-- What puts a result in flight leaves the run state alone. -/
@[simp] theorem fly_run (x : Site) (a n : Nat) (e : Ev) (k : Core) : (fly x a n e k).run = k.run := rfl

theorem note_run (x : Site) (k : Core) (p : Trace → Bool → Trace) : (note x k p).run = k.run := by
  unfold note; split <;> rfl

@[simp] theorem noteG_run (x : Site) (r : Nat) (k : Core) : (noteG x r k).run = k.run := by
  unfold noteG; split
  · rfl
  · exact note_run ..
@[simp] theorem noteV_run (x : Site) (r : Nat) (k : Core) : (noteV x r k).run = k.run := note_run ..
@[simp] theorem noteP_run (x : Site) (r : Nat) (k : Core) : (noteP x r k).run = k.run := by
  unfold noteP; split
  · rfl
  · exact note_run ..
@[simp] theorem noteS_run (x : Site) (r : Nat) (k : Core) : (noteS x r k).run = k.run := note_run ..
@[simp] theorem noteT_run (x : Site) (r : Nat) (k : Core) : (noteT x r k).run = k.run := note_run ..
@[simp] theorem noteStat_run (x : Site) (r : Nat) (k : Core) : (noteStat x r k).run = k.run := note_run ..
@[simp] theorem noteRows_run (x : Site) (b n : Nat) (k : Core) : (noteRows x b n k).run = k.run := note_run ..
@[simp] theorem flyG_run (x : Site) (r n : Nat) (v : Word) (k : Core) : (flyG x r n v k).run = k.run := by
  unfold flyG; split <;> simp
@[simp] theorem flyV_run (x : Site) (r : VReg) (n : Nat) (v m : BitVec 16384) (k : Core) : (flyV x r n v m k).run = k.run := by
  simp [flyV]
@[simp] theorem flyP_run (x : Site) (r : PReg) (n : Nat) (v m : BitVec 1024) (k : Core) : (flyP x r n v m k).run = k.run := by
  unfold flyP; split <;> simp

/-- A partition that is asked to halt: no core changes. -/
@[simp] theorem askHalt_core (s : State) (p : Nat) (code : Code) (k : Option Nat) (c : Nat) :
    (s.askHalt p code k).core c = s.core c := rfl

theorem lowest_cons (a : Code) (l : List Code) : ∃ x, lowest (a :: l) = some x := by
  unfold lowest
  simp only [List.foldl_cons]
  generalize a = y
  induction l generalizing y with
  | nil => exact ⟨y, rfl⟩
  | cons b l ih => exact ih _

/-- A core that meets a condition halts (R120). -/
theorem coreHalt_run (s : State) (c : Nat) (a : Flt) (l : List Flt) : ((s.coreHalt c (a :: l)).core c).run = .halted := by
  obtain ⟨x, hx⟩ := lowest_cons a.code (l.map (·.code))
  unfold State.coreHalt
  simp only [List.map_cons, hx]
  split <;> simp [Core.fault]

theorem coreFaults_run (s : State) (c : Nat) {fs : List Flt} (h : fs ≠ []) : ((s.coreFaults c fs).core c).run = .halted := by
  cases fs with
  | nil => exact absurd rfl h
  | cons f fs =>
    unfold State.coreFaults
    simp only [List.isEmpty_cons, Bool.false_eq_true, if_false]
    exact coreHalt_run ..

@[simp] theorem coreFaults_nil (s : State) (c : Nat) : s.coreFaults c [] = s := rfl

/-- What was due before a bundle that issues: the core and the local store, and no condition met. -/
theorem ahead_eq {s : State} {c : Nat} (h : (s.coreAhead c).mayIssue = true) :
    ∃ b : Bench, s.ahead c = { s.modCore c (fun _ => b.core) with mem := b.mem } := by
  have hr := mayIssue_not_halted h
  unfold State.coreAhead at hr
  unfold State.ahead State.settleCore State.putBench at *
  extract_lets k e b0 b1 b2 b3 at hr ⊢
  by_cases hf : b3.faults = []
  · exact ⟨b3, by rw [hf]; rfl⟩
  · exact absurd (coreFaults_run _ c hf) hr

@[simp] theorem ahead_sync {s : State} {c : Nat} (h : (s.coreAhead c).mayIssue = true) : (s.ahead c).sync = s.sync := by
  obtain ⟨b, hb⟩ := ahead_eq h
  rw [hb]; rfl

@[simp] theorem ahead_parts {s : State} {c : Nat} (h : (s.coreAhead c).mayIssue = true) : (s.ahead c).parts = s.parts := by
  obtain ⟨b, hb⟩ := ahead_eq h
  rw [hb]; rfl

theorem ahead_core {s : State} {c : Nat} (h : (s.coreAhead c).mayIssue = true) {d : Nat} (hd : d ≠ c) :
    (s.ahead c).core d = s.core d := by
  obtain ⟨b, hb⟩ := ahead_eq h
  rw [hb]
  exact State.modCore_core_other s c d (fun _ => b.core) hd

/-- Nothing in flight: nothing is due. -/
theorem settle_idle {n : Nat} {e : Env} {bad : List Nat} {t : Nat} {b : Bench} (h : b.core.flights = []) :
    settle n e bad t b = b := by
  cases n with
  | zero => rfl
  | succ n => simp [settle, nextDue, h]

theorem landAll_idle {n t : Nat} {k : Core} (h : k.flights = []) : landAll n t k = k := by
  cases n with
  | zero => rfl
  | succ n => simp [landAll, landsBy, h, sortBy]

/-- With nothing in flight no touch and no pair read is due. -/
theorem lateTouches_idle {e : Env} {bad : List Nat} {b : Bench} (h : b.core.flights = []) (hf : b.faults = []) :
    lateTouches e bad b = b := by
  obtain ⟨⟨⟩, m, f⟩ := b
  simp only at h hf
  subst h hf
  simp [lateTouches, pairsAt, touchesAt, takeDue, touchOrder, sortBy, doTouches]

/-- A core with nothing in flight is as it stood. -/
theorem ahead_idle {s : State} {c : Nat} (h : (s.core c).flights = []) :
    s.ahead c = { s.modCore c (fun _ => s.core c) with mem := s.mem } := by
  unfold State.ahead State.settleCore State.putBench
  extract_lets k e b0 b1 b2 b3
  have h0 : b0.core.flights = [] := h
  have h1 : b1 = b0 := by
    simp only [b1]
    split
    · exact settle_idle h0
    · split
      · rfl
      · exact settle_idle h0
  have h2 : b2 = b0 := by
    simp only [b2, h1]
    have : b0.faults.isEmpty = true := rfl
    rw [this, if_pos rfl, landAll_idle h0]
  have h3 : b3 = b0 := by
    simp only [b3, h2]
    split
    · exact lateTouches_idle h0 rfl
    · rfl
  show State.coreFaults { s.modCore c (fun _ => b3.core) with mem := b3.mem } c b3.faults = _
  rw [h3]
  exact coreFaults_nil _ c

theorem coreAhead_idle {s : State} {c : Nat} (h : (s.core c).flights = []) : s.coreAhead c = s.core c := by
  unfold State.coreAhead
  rw [ahead_idle h]
  exact State.modCore_core_same s c fun _ => s.core c

theorem takeFaults_run (s : State) (c : Nat) (e : Env) (t : Nat) {fs : List Flt} (h : fs ≠ []) :
    ((s.takeFaults c e t fs).core c).run = .halted := by
  unfold State.takeFaults
  rw [if_neg (by simpa using h)]
  exact coreFaults_run _ c (by simp [h])

/-- A core after a bundle of one instruction that was not executed. -/
def pastSlot (before k : Core) : Core := { afterBundle before.branch k with cycle := before.cycle + 1 }

/-- A bundle of one scalar instruction that meets conditions: they are recorded with those of its cycle, and the core halts. -/
theorem slotSc_halts {s : State} {c : Nat} {l : Launch} (h : Ready s c l) (op : ScOp) (k : Core) (fs : List Flt) (hfs : fs ≠ [])
    (hk : issueSc (s.site c l) op { core := s.coreAhead c } = { core := k, faults := fs, ext := [] }) :
    ∃ a, slotSc c op s = .next { ((s.ahead c).modCore c (fun _ => pastSlot (s.coreAhead c) k)).takeFaults c ((s.ahead c).env c)
      (s.coreAhead c).cycle (fs.map (s.site c l).own) with answer := a } := by
  rw [slotSc, guarded_of (by simpa using h.number)]
  have h1 := h.before
  have h2 : ((s.settleCore c []).core c).mayIssue = true := h.after
  have h3 : ((s.settleCore c []).core c).block = some l := h.block
  have h4 : ¬ l.bundles ≤ ((s.settleCore c []).core c).pc := by
    have := h.inside
    simp only [State.coreAhead, State.ahead] at this
    omega
  have h5 : ((s.settleCore c []).core c).late = [] := h.late
  have hi : issueSlots (s.site c l) { sc := op } (s.coreAhead c)
      = { core := pastSlot (s.coreAhead c) k, faults := fs.map (s.site c l).own, ext := [] } := by
    simp [issueSlots, issueVe, issueMm, issueMv, hk, pastSlot]
  have hu : (s.settleCore c []).issueNow c (some { sc := op }) = ((s.ahead c).modCore c (fun _ => pastSlot (s.coreAhead c) k)).takeFaults c
      ((s.ahead c).env c) (s.coreAhead c).cycle (fs.map (s.site c l).own) := by
    unfold State.issueNow
    simp only [h3, h4, if_false, VeOp.freeUse, MmOp.wf, VeOp.wf, noLate h5]
    simp only [State.site, State.coreAhead, State.ahead] at hi ⊢
    simp only [Bool.and_self, if_true]
    rw [hi]
    simp [h5]
  unfold State.issue
  simp only [h1, h2, if_true, hu]
  rw [if_pos (takeFaults_run _ c _ _ (by simpa using hfs))]
  exact ⟨_, rfl⟩

/-- An event bit, a log record and attention leave alone what neither holds. -/
theorem setEvent_cores (s : State) (f b : Nat) : (s.setEvent f b).cores = s.cores := rfl
theorem setEvents_frame {α} (π : State → α) (h : ∀ (s : State) f b, π (s.setEvent f b) = π s) (s : State) (b q) : π (s.setEvents b q) = π s := by
  unfold State.setEvents
  generalize List.range 9 = l
  induction l generalizing s with
  | nil => rfl
  | cons f l ih => 
    simp only [List.foldl_cons]
    rw [ih]; split
    · exact h ..
    · rfl
theorem log_frame {α} (π : State → α) (h1 : ∀ (s : State) f b, π (s.setEvent f b) = π s) (h2 : ∀ (s : State) m, π {s with mgmt := m} = π s) (s : State) (a) : π (s.log a) = π s := by
  have he : π (s.enqueue a) = π s := by
    unfold State.enqueue; split <;> exact h2 ..
  unfold State.log
  simp only
  split
  · unfold State.attend
    simp only
    rw [setEvents_frame π h1]
    rw [h2, he]
  · exact he
theorem logAll_frame {α} (π : State → α) (h1 : ∀ (s : State) f b, π (s.setEvent f b) = π s) (h2 : ∀ (s : State) m, π {s with mgmt := m} = π s) (s : State) (l) : π (s.logAll l) = π s := by
  unfold State.logAll
  generalize sortBy logBefore l = l
  induction l generalizing s with
  | nil => rfl
  | cons f l ih => simp only [List.foldl_cons]; rw [ih, log_frame π h1 h2]

theorem coreHalt_core (s : State) (c : Nat) (a : Flt) (l : List Flt) : ((s.coreHalt c (a :: l)).core c) = (s.core c).fault (a::l) := by
  obtain ⟨x, hx⟩ := lowest_cons a.code (l.map (·.code))
  unfold State.coreHalt
  simp only [List.map_cons, hx]
  split <;> simp

theorem coreFaults_core (s : State) (c : Nat) (f : Flt) (fs : List Flt) :
   ((s.coreFaults c (f :: fs)).core c) = (s.core c).fault (f :: fs) := by
  unfold State.coreFaults
  simp only [List.isEmpty_cons, Bool.false_eq_true, if_false]
  rw [coreHalt_core]
  congr 1
  have h : ∀ s : State, ∀ l, (s.logAll l).core c = s.core c := fun s l => logAll_frame (fun t => t.core c) (fun _ _ _ => rfl) (fun _ _ => rfl) s l
  split
  · rw [State.modPart_core]; exact h ..
  · exact h ..

theorem coreFaults_mem (s : State) (c : Nat) (fs : List Flt) :
   (s.coreFaults c fs).mem = s.mem := by
  have h : ∀ s : State, ∀ l, (s.logAll l).mem = s.mem := fun s l => logAll_frame (fun t => t.mem) (fun _ _ _ => rfl) (fun _ _ => rfl) s l
  unfold State.coreFaults
  split
  · rfl
  · have h2 : ∀ (s : State) l, (s.coreHalt c l).mem = s.mem := by
      intro s l; unfold State.coreHalt; split
      · rfl
      · dsimp; split <;> rfl
    simp only [h2]
    split
    · rw [State.modPart_mem]; exact h ..
    · exact h ..

theorem sortBy_one {α} (le : α → α → Bool) (x : α) : sortBy le [x] = [x] := rfl

/-- One landing in flight, due by `t`: it lands, and nothing else is in flight unless the landing goes on. -/
theorem landAll_one {n t : Nat} {k : Core} {f : Flight} (h : k.flights = [f]) (hl : f.ev.lands = true) (hd : f.due ≤ t)
    (hn : (landEv f { k with flights := [] }).flights = []) :
    landAll (n + 2) t k = landEv f { k with flights := [] } := by
  have h1 : landsBy k t = [f] := by
    simp [landsBy, h, hl, hd, sortBy, insertBy]
  rw [landAll]
  simp only [h1, h, List.erase_cons_head]
  exact landAll_idle hn

theorem cycleAt_land {e : Env} {bad : List Nat} {t : Nat} {b : Bench} {f : Flight} (h : b.core.flights = [f]) (hl : f.ev.lands = true)
    (hd : f.due ≤ t) (hn : (landEv f { b.core with flights := [] }).flights = []) :
    cycleAt e bad t b = { b with core := landEv f { b.core with flights := [] } } := by
  unfold cycleAt
  have : landAll (4 * b.core.flights.length + 200) t b.core = landEv f { b.core with flights := [] } := by
    rw [h]; exact landAll_one h hl hd hn
  simp only [this]
  generalize landEv f { b.core with flights := [] } = K at *
  obtain ⟨⟩ := K
  simp only at hn
  subst hn
  simp [pairsAt, touchesAt, takeDue, touchOrder, sortBy, doTouches]

theorem settleCore_land {s : State} {c : Nat} {f : Flight} {bad : List Nat} (h : OneFlight s c f) (hl : f.ev.lands = true) (hd : f.due ≤ (s.core c).cycle)
    (hn : (landEv f { s.core c with flights := [] }).flights = [])  :
    s.settleCore c bad = { s.modCore c (fun _ => landEv f { s.core c with flights := [] }) with mem := s.mem } := by
  have hm : ∀ m t e, settle (m + 2) e bad t (s.bench c) = if f.due ≤ t then { (s.bench c) with core := landEv f { s.core c with flights := [] } } else s.bench c := by
    intro m t e
    have h1 : nextDue (s.bench c).core (fun _ => true) = some f.due := by
      simp [nextDue, State.bench, h.only]
    rw [settle]
    simp only [h1]
    split
    · rw [cycleAt_land (f := f) h.only hl (Nat.le_refl _) hn]
      exact settle_idle hn
    · rfl
  unfold State.settleCore State.putBench
  extract_lets k e b0 b1 b2 b3
  have h2 : b2 = { b0 with core := landEv f { s.core c with flights := [] } } := by
    have hr : ¬ k.run = .halted := h.run
    simp only [b2, b1, hr, if_false, settleFuel]
    by_cases h0 : k.cycle = 0
    · simp only [h0, if_true]
      show ({ b0 with core := landAll (4 * (s.core c).flights.length + 200) _ (s.core c) } : Bench) = _
      have : f.due ≤ 0 := by rw [← h0]; exact hd
      rw [h.only, landAll_one h.only hl this hn]
    · simp only [h0, if_false]
      rw [hm 19998]
      by_cases h3 : f.due ≤ k.cycle - 1
      · rw [if_pos h3]
        have : ({ s.bench c with core := landEv f { s.core c with flights := [] } } : Bench).faults.isEmpty = true := rfl
        rw [if_pos this, landAll_idle hn]
      · rw [if_neg h3]
        show ({ b0 with core := landAll (4 * (s.core c).flights.length + 200) _ (s.core c) } : Bench) = _
        rw [h.only, landAll_one h.only hl hd hn]
  have h3 : b3 = b2 := by
    simp only [b3]
    split
    · exact lateTouches_idle (by rw [h2]; exact hn) (by rw [h2]; rfl)
    · rfl
  show State.coreFaults { s.modCore c (fun _ => b3.core) with mem := b3.mem } c b3.faults = _
  rw [h3, h2]
  exact coreFaults_nil _ c

theorem eventOf_land {s : State} {c : Nat} {f : Flight} {p : Ev → Bool} (h : OneFlight s c f) (hl : f.ev.lands = true) (hp : p f.ev = true)
    (hd : f.due ≤ (s.core c).cycle) (hn : (landEv f { s.core c with flights := [] }).flights = [])
    (hr : (landEv f { s.core c with flights := [] }).run = (s.core c).run) :
    s.eventOf c p [] = .next { s.modCore c (fun _ => landEv f { s.core c with flights := [] }) with mem := s.mem, answer := .ok [] } := by
  unfold State.eventOf
  have hdue : s.due c p = true := by
    unfold State.due
    have := h.run
    simp [h.only, hp, hl, hd]
  rw [guarded_of (by simp [h.number, hdue])]
  simp only [settleCore_land h hl hd hn]
  rw [if_neg]
  · rfl
  · intro hh
    have := hh.1
    have e : State.core { s.modCore c (fun _ => landEv f { s.core c with flights := [] }) with mem := s.mem } c = landEv f { s.core c with flights := [] } := State.modCore_core_same s c (fun _ => landEv f { s.core c with flights := [] })
    rw [e, hr] at this
    exact h.run this

theorem onCoreMem_of {i : Instr} {s : State} {c : Nat} {k : Core} {m : Mem} (h : exec i s = .next { s.modCore c (fun _ => k) with mem := m, answer := .ok [] }) : OnCoreMem i s c k m :=
  ⟨_, h, rfl, State.modCore_core_same s c fun _ => k, fun d hd => State.modCore_core_other s c d (fun _ => k) hd, rfl, rfl⟩

theorem foldl_set_get {α} [DecidableEq α] (d v : α) (base : Nat) : ∀ (n : Nat) (t : Tab α) (q : Nat), Tab.get d ((List.range n).foldl (fun t j => t.set d (base + j) v) t) q = if base ≤ q ∧ q < base + n then v else Tab.get d t q := by
  intro n t q
  induction n with
  | zero => simp
  | succ n ih =>
    rw [List.range_succ, List.foldl_append]
    simp only [List.foldl_cons, List.foldl_nil]
    rw [Tab.get_set, ih]
    split
    · rename_i h; subst h; rw [if_pos (by omega)]
    · split
      · rw [if_pos (by omega)]
      · rw [if_neg (by omega)]

end Sys2Proof
end

