-- ==== Sys2Proof/Laws/Mem.lean ====
section
/-! SUPPORT. Memory: its canonical form is kept by every operation; a read after a write; other bytes unchanged. -/

namespace Sys2Proof.Machine

theorem Mem.wf_iff (m : Mem) : m.wf = true ↔
    m.bytes.wf 0 = true ∧ m.poison.wf false = true ∧ m.cache.wf none = true ∧ m.held.wf [] = true := by
  simp [Mem.wf, and_assoc]

/-- Right after reset memory lists nothing. -/
theorem reset_mem_wf : State.reset.mem.wf = true := rfl

/-- A read of the byte just written gives it; every other byte stands. -/
theorem lsWrite_get (m : Mem) (c off : Nat) (bs : List Byte) (a : Nat) :
    (lsWrite m c off bs).bytes.get 0 a
      = if lsAddr c off ≤ a then (bs[a - lsAddr c off]?).getD (m.bytes.get 0 a) else m.bytes.get 0 a :=
  Tab.get_setList 0 bs m.bytes (lsAddr c off) a

theorem poke_get (m : Mem) (x : Nat) (bs : List Byte) (a : Nat) :
    (m.poke x bs).bytes.get 0 a = if x ≤ a then (bs[a - x]?).getD (m.bytes.get 0 a) else m.bytes.get 0 a :=
  Tab.get_setList 0 bs m.bytes x a

theorem clearPoison_wf {p : Tab Bool} (u a n : Nat) (h : p.wf false = true) : (clearPoison p u a n).wf false = true :=
  Tab.wf_filter _ h

theorem lsWrite_wf {m : Mem} (c off : Nat) (bs : List Byte) (h : m.wf = true) : (lsWrite m c off bs).wf = true := by
  rw [Mem.wf_iff] at *
  exact ⟨Tab.wf_setList bs _ h.1, clearPoison_wf _ _ _ h.2.1, h.2.2⟩

theorem poke_wf {m : Mem} (a : Nat) (bs : List Byte) (h : m.wf = true) : (m.poke a bs).wf = true := by
  rw [Mem.wf_iff] at *
  exact ⟨Tab.wf_setList bs _ h.1, clearPoison_wf _ _ _ h.2.1, h.2.2⟩

theorem mark_wf {m : Mem} (a : Nat) (h : m.wf = true) : (m.mark a).wf = true := by
  rw [Mem.wf_iff] at *
  exact ⟨h.1, Tab.wf_set (a / poisonUnit a * poisonUnit a) true h.2.1, h.2.2⟩

theorem wipe_wf {m : Mem} (k : Nat) (h : m.wf = true) : (m.wipe k).wf = true := by
  rw [Mem.wf_iff] at *
  exact ⟨Tab.wf_filter _ h.1, Tab.wf_filter _ h.2.1, Tab.wf_filter _ h.2.2.1, h.2.2.2⟩

theorem putLine_wf {s : State} (line : Nat) (l : CLine) (h : s.mem.wf = true) : (s.putLine line l).mem.wf = true := by
  rw [Mem.wf_iff] at *
  exact ⟨h.1, h.2.1, Tab.wf_set line (some ({ l with age := s.mem.age + 1 } : CLine)) h.2.2.1, h.2.2.2⟩

theorem dropLine_wf {s : State} (line : Nat) (h : s.mem.wf = true) : (s.dropLine line).mem.wf = true := by
  rw [Mem.wf_iff] at *
  exact ⟨h.1, h.2.1, Tab.wf_drop _ h.2.2.1, h.2.2.2⟩

/-- Log records, attention and events leave memory alone. -/
@[simp] theorem setEvents_mem (s : State) (b : Nat) (q : Nat → Fn → Bool) : (s.setEvents b q).mem = s.mem := by
  unfold State.setEvents
  generalize List.range 9 = l
  induction l generalizing s with
  | nil => rfl
  | cons f l ih =>
    simp only [List.foldl_cons]
    rw [ih]
    split <;> rfl

@[simp] theorem attend_mem (s : State) (c : Code) : (s.attend c).mem = s.mem := by
  unfold State.attend
  simp

@[simp] theorem enqueue_mem (s : State) (a : LogArg) : (s.enqueue a).mem = s.mem := by
  unfold State.enqueue
  split <;> rfl

@[simp] theorem log_mem (s : State) (a : LogArg) : (s.log a).mem = s.mem := by
  unfold State.log
  simp only
  split <;> simp

@[simp] theorem memLog_mem (s : State) (p : Option Nat) (a : LogArg) (src : Nat) : (s.memLog p a src).mem = s.mem := by
  unfold State.memLog
  simp only
  split <;> simp

theorem countEcc_mem (s : State) (k : Nat) (e : Ecc) : (s.countEcc k e).mem = s.mem := by
  unfold State.countEcc
  split
  · rfl
  · split <;> rfl

/-- Writing bytes without a look at the poison. -/
theorem setBytes_wf {m : Mem} (a : Nat) (bs : List Byte) (h : m.wf = true) :
    Mem.wf { m with bytes := m.bytes.setList 0 a bs } = true := by
  rw [Mem.wf_iff] at *
  exact ⟨Tab.wf_setList bs _ h.1, h.2⟩

theorem writeBack_wf {s : State} (line : Nat) (l : CLine) (bad : Option Nat) (h : s.mem.wf = true) :
    (s.writeBack line l bad).mem.wf = true := by
  have hb := setBytes_wf (128 * line) l.data h
  unfold State.writeBack
  split
  · exact h
  · dsimp only
    generalize bad.map (· % 128) = found
    cases found with
    | none =>
      dsimp only
      split
      · rw [memLog_mem]
        exact hb
      · exact hb
    | some o =>
      dsimp only
      split
      · rw [memLog_mem, countEcc_mem]
        exact mark_wf _ hb
      · rw [countEcc_mem]
        exact mark_wf _ hb

theorem foundBad_wf {s : State} (a : Nat) (h : s.mem.wf = true) : (s.foundBad a).mem.wf = true := by
  have hm := mark_wf (m := s.mem) a h
  unfold State.foundBad
  dsimp only
  split
  · rename_i l _
    rw [Mem.wf_iff] at *
    exact ⟨hm.1, hm.2.1, Tab.wf_set (a / 128) (some ({ l with bad := l.bad ++ [a % 128] } : CLine)) hm.2.2.1, hm.2.2.2⟩
  · exact hm

theorem yieldKeep_wf {s : State} (p line : Nat) (h : s.mem.wf = true) : (s.yieldKeep p line).mem.wf = true := by
  unfold State.yieldKeep
  simp only
  split
  · exact h
  · split
    · rename_i e _
      rw [Mem.wf_iff] at *
      exact ⟨h.1, h.2.1, Tab.wf_set e.1 (some ({ e.2 with keep := false } : CLine)) h.2.2.1, h.2.2.2⟩
    · exact h

theorem makeRoom_wf {s : State} (p line : Nat) (bad : Option Nat) (h : s.mem.wf = true) : (s.makeRoom p line bad).mem.wf = true := by
  unfold State.makeRoom
  simp only
  split
  · exact h
  · split
    · exact dropLine_wf _ (writeBack_wf _ _ _ h)
    · exact h

theorem allocLine_wf {s : State} (p line : Nat) (keep : Bool) (bad : Option Nat) (h : s.mem.wf = true) :
    (s.allocLine p line keep bad).mem.wf = true := by
  unfold State.allocLine
  simp only
  refine putLine_wf _ _ ?_
  split
  · exact yieldKeep_wf _ _ (makeRoom_wf _ _ _ h)
  · exact makeRoom_wf _ _ _ h

theorem cacheRead_wf {s : State} (p hint : Nat) (bad : Option Nat) (a n : Nat) (h : s.mem.wf = true) :
    (s.cacheRead p hint bad a n).2.mem.wf = true := by
  unfold State.cacheRead
  simp only
  split
  · dsimp only
    split
    · exact dropLine_wf _ h
    · split
      · exact h
      · split
        · exact putLine_wf _ _ (yieldKeep_wf _ _ h)
        · exact putLine_wf _ _ h
  · dsimp only
    split
    · exact h
    · exact allocLine_wf _ _ _ _ h

theorem cacheWrite_wf {s : State} (p hint : Nat) (bad : Option Nat) (a : Nat) (bs : List Byte) (h : s.mem.wf = true) :
    (s.cacheWrite p hint bad a bs).mem.wf = true := by
  have hput : ∀ (t : State) (l : CLine), t.mem.wf = true →
      (Mem.wf { (t.putLine (a / 128) l).mem with
        poison := clearPoison (t.putLine (a / 128) l).mem.poison (poisonUnit a) a bs.length }) = true := by
    intro t l ht
    have := putLine_wf (a / 128) l ht
    rw [Mem.wf_iff] at *
    exact ⟨this.1, clearPoison_wf _ _ _ this.2.1, this.2.2⟩
  unfold State.cacheWrite
  simp only
  split
  · refine hput _ _ ?_
    split
    · exact yieldKeep_wf _ _ h
    · exact h
  · split
    · exact poke_wf _ _ h
    · split
      · exact hput _ _ (allocLine_wf _ _ _ _ h)
      · exact allocLine_wf _ _ _ _ h

/-- A fold of steps that each keep the canonical form keeps it. -/
theorem foldl_mem_wf {α : Type} (f : State → α → State) (hf : ∀ s x, s.mem.wf = true → (f s x).mem.wf = true) :
    ∀ (l : List α) (s : State), s.mem.wf = true → (l.foldl f s).mem.wf = true
  | [], _, h => h
  | x :: l, s, h => foldl_mem_wf f hf l (f s x) (hf s x h)

theorem flushRange_wf {s : State} (a b : Nat) (h : s.mem.wf = true) : (s.flushRange a b).mem.wf = true := by
  unfold State.flushRange
  refine foldl_mem_wf _ ?_ _ _ h
  intro t e ht
  split
  · split
    · exact dropLine_wf _ (writeBack_wf _ _ _ ht)
    · exact ht
  · exact ht

theorem flushPart_wf {s : State} (p : Nat) (drop : Bool) (h : s.mem.wf = true) : (s.flushPart p drop).mem.wf = true := by
  unfold State.flushPart
  refine foldl_mem_wf _ ?_ _ _ h
  intro t e ht
  split
  · rename_i l _
    split
    · have hu := writeBack_wf e.1 l none ht
      generalize t.writeBack e.1 l none = u at hu ⊢
      dsimp only
      split
      · exact dropLine_wf _ hu
      · rw [Mem.wf_iff] at *
        exact ⟨hu.1, hu.2.1, Tab.wf_set e.1 (some ({ l with dirty := false, bad := [] } : CLine)) hu.2.2.1, hu.2.2.2⟩
    · exact ht
  · exact ht

theorem countBytes_mem (s : State) (a n : Nat) (w : Bool) : (s.countBytes a n w).mem = s.mem := by
  unfold State.countBytes
  generalize pieces 4096 a n = l
  induction l generalizing s with
  | nil => rfl
  | cons e l ih =>
    simp only [List.foldl_cons]
    rw [ih]
    split <;> rfl

theorem replace_wf {s : State} (a : Nat) (bs : List Byte) (h : s.mem.wf = true) : (s.replace a bs).mem.wf = true := by
  unfold State.replace
  split
  · exact putLine_wf _ _ h
  · rw [Mem.wf_iff] at *
    exact ⟨Tab.wf_setList bs _ h.1, h.2⟩

theorem applyAdd_wf {s : State} (ty op a : Nat) (bs : List Byte) (h : s.mem.wf = true) :
    (s.applyAdd ty op a bs).mem.wf = true := by
  unfold State.applyAdd
  refine foldl_mem_wf _ ?_ _ _ h
  intro t i ht
  rw [State.modMc_mem]
  exact replace_wf _ _ ht

theorem perform_wf {s : State} (r : Req) (h : Hit) (phys : Nat) (hm : s.mem.wf = true) :
    (s.perform r h phys).2.mem.wf = true := by
  unfold State.perform
  dsimp only
  split
  · rw [countBytes_mem]
    exact applyAdd_wf _ _ _ _ hm
  · rw [countBytes_mem]
    split
    · exact foldl_mem_wf _ (fun t e ht => cacheWrite_wf _ _ _ _ _ ht) _ _ hm
    · exact poke_wf _ _ hm
  · rw [countBytes_mem]
    split
    · generalize pieces 128 phys r.len = l
      generalize ([] : List Byte) = acc
      induction l generalizing s acc with
      | nil => exact hm
      | cons e l ih =>
        simp only [List.foldl_cons]
        exact ih (cacheRead_wf _ _ _ _ _ hm) _
    · exact hm

theorem memRefuse_mem (s : State) (r : Req) (g i : Option Nat) (c : Code) : (s.memRefuse r g i c).2.mem = s.mem := by
  unfold State.memRefuse
  simp

theorem protect_wf {s : State} (r : Req) (h : Hit) (phys : Nat) (hm : s.mem.wf = true) :
    (s.protect r h phys).2.mem.wf = true := by
  have hp : ((s.countEcc (s.adderAt phys) r.ecc).perform r h phys).2.mem.wf = true := by
    refine perform_wf _ _ _ ?_
    rw [countEcc_mem]
    exact hm
  unfold State.protect
  dsimp only
  split
  · rw [memRefuse_mem, countEcc_mem]
    exact foundBad_wf _ hm
  · split
    · rw [memRefuse_mem]
      exact hm
    · exact hp

theorem holdAt_wf {s : State} (h : Held) (hm : s.mem.wf = true) : (s.holdAt h).mem.wf = true := by
  unfold State.holdAt
  rw [Mem.wf_iff] at *
  exact ⟨hm.1, hm.2.1, hm.2.2.1, Tab.wf_set (targetOf h.req.addr) (s.heldAt (targetOf h.req.addr) ++ [h]) hm.2.2.2⟩

theorem hold_wf {s : State} (h : Held) (hm : s.mem.wf = true) : (s.hold h).2.mem.wf = true := by
  unfold State.hold
  split
  · exact hm
  · exact holdAt_wf h hm

end Sys2Proof.Machine
end

