-- ==== Sys2Proof/WellFormed.lean ====
section
/-! DEFINITION. Well-formed commands: every number names a thing that the module has. The meaning of an ill-formed command
answers idle (assumption log 4). -/

namespace Sys2Proof

open Sys2Proof.Machine

/-- The fields of a packet fit the widths of Tables 08-2 to 08-4. -/
def Machine.Pkt.wf (x : Pkt) : Bool :=
  decide (x.dst < 2 ^ 16) && decide (x.src < 2 ^ 14) && decide (x.cls < 4) && decide (x.vc < 2) && decide (x.ty < 16)
    && decide (x.epochLo < 4) && decide (x.len < 2 ^ 14) && decide (x.hops < 16) && decide (x.rsvd < 8)
    && decide (x.seq < 2 ^ 16) && decide (x.offset < 2 ^ 44) && decide (x.rsvd1 < 16) && decide (x.ftime < 2 ^ 32)
    && decide (x.aux < 2 ^ 16) && x.payload.length == (if x.ty = 2 then 0 else x.len)

/-- Every operand is in its range. -/
def Instr.wf (i : Instr) : Bool :=
  match i with
  | .bundleIssue c => decide (c < 32)
  | .scAdd c _ _ _ => decide (c < 32)
  | .scSub c _ _ _ => decide (c < 32)
  | .scAnd c _ _ _ => decide (c < 32)
  | .scOr c _ _ _ => decide (c < 32)
  | .scXor c _ _ _ => decide (c < 32)
  | .scShl c _ _ _ => decide (c < 32)
  | .scShr c _ _ _ => decide (c < 32)
  | .scSra c _ _ _ => decide (c < 32)
  | .scMul c _ _ _ => decide (c < 32)
  | .scAddi c _ _ _ => decide (c < 32)
  | .scMovhi c _ _ _ => decide (c < 32)
  | .scCmpeq c _ _ _ => decide (c < 32)
  | .scCmplt c _ _ _ => decide (c < 32)
  | .scCmpltu c _ _ _ => decide (c < 32)
  | .scLd c _ _ _ => decide (c < 32)
  | .scSt c _ _ _ => decide (c < 32)
  | .scBr c _ => decide (c < 32)
  | .scBrnz c _ _ => decide (c < 32)
  | .scBrz c _ _ => decide (c < 32)
  | .scLoop c _ _ => decide (c < 32)
  | .scBrsum c _ _ _ _ => decide (c < 32)
  | .scEnd c => decide (c < 32)
  | .scRdsum c _ _ _ => decide (c < 32)
  | .scWait c _ _ => decide (c < 32)
  | .scSig c _ _ => decide (c < 32)
  | .scWaitt c _ => decide (c < 32)
  | .scFtime c _ => decide (c < 32)
  | .srSeed c _ => decide (c < 32)
  | .scSquash c _ => decide (c < 32)
  | .scExtb c _ => decide (c < 32)
  | .coreWake c => decide (c < 32)
  | .waitLimit c => decide (c < 32)
  | .launchStart c => decide (c < 32)
  | .lsTouch c _ => decide (c < 32)
  | .mvGo c _ _ => decide (c < 32)
  | .mvAccst c _ _ _ _ _ _ _ => decide (c < 32)
  | .mvAccstPairRead c => decide (c < 32)
  | .descriptorComplete c m _ => decide (c < 32) && decide (m < 2)
  | .mmLd c _ _ _ _ _ _ _ => decide (c < 32)
  | .stationaryReady c => decide (c < 32)
  | .mmStream c _ _ _ _ _ _ _ _ _ _ => decide (c < 32)
  | .mmZero c _ _ _ => decide (c < 32)
  | .mmAccLd c _ _ _ _ => decide (c < 32)
  | .accRowWrite c => decide (c < 32)
  | .veLd c _ _ _ => decide (c < 32)
  | .veLdb c _ _ _ _ => decide (c < 32)
  | .veSt c _ _ _ _ => decide (c < 32)
  | .veAccrd c _ _ _ _ _ _ => decide (c < 32)
  | .veAddF32 c _ _ _ _ => decide (c < 32)
  | .veSubF32 c _ _ _ _ => decide (c < 32)
  | .veMulF32 c _ _ _ _ => decide (c < 32)
  | .veFmaF32 c _ _ _ _ _ => decide (c < 32)
  | .veFmsF32 c _ _ _ _ _ => decide (c < 32)
  | .veAddBf16 c _ _ _ _ => decide (c < 32)
  | .veMulBf16 c _ _ _ _ => decide (c < 32)
  | .veFmaBf16 c _ _ _ _ _ => decide (c < 32)
  | .veAddI32 c _ _ _ _ => decide (c < 32)
  | .veSubI32 c _ _ _ _ => decide (c < 32)
  | .veShlI32 c _ _ _ _ => decide (c < 32)
  | .veShrI32 c _ _ _ _ => decide (c < 32)
  | .veAnd c _ _ _ _ => decide (c < 32)
  | .veOr c _ _ _ _ => decide (c < 32)
  | .veXor c _ _ _ _ => decide (c < 32)
  | .veCmpF32 c _ _ _ _ _ => decide (c < 32)
  | .veCmpI32 c _ _ _ _ _ => decide (c < 32)
  | .veMinF32 c _ _ _ _ => decide (c < 32)
  | .veMaxF32 c _ _ _ _ => decide (c < 32)
  | .veAbsF32 c _ _ _ => decide (c < 32)
  | .veNegF32 c _ _ _ => decide (c < 32)
  | .veSel c _ _ _ _ _ => decide (c < 32)
  | .veMov c _ _ _ => decide (c < 32)
  | .vePand c _ _ _ => decide (c < 32)
  | .vePor c _ _ _ => decide (c < 32)
  | .vePxor c _ _ _ => decide (c < 32)
  | .vePnot c _ _ => decide (c < 32)
  | .veCvt c _ _ _ _ _ _ _ _ _ _ => decide (c < 32)
  | .veScode c _ _ _ _ => decide (c < 32)
  | .veFnF32 c _ _ _ _ => decide (c < 32)
  | .veFndF32 c _ _ _ _ => decide (c < 32)
  | .veFnBf16 c _ _ _ _ _ => decide (c < 32)
  | .veFndBf16 c _ _ _ _ _ => decide (c < 32)
  | .veRsumF32 c _ _ _ _ => decide (c < 32)
  | .veRmaxF32 c _ _ _ _ => decide (c < 32)
  | .veRamaxF32 c _ _ _ _ => decide (c < 32)
  | .veSumm c _ _ _ _ _ _ => decide (c < 32)
  | .veTld c _ _ => decide (c < 32)
  | .veResultLand c => decide (c < 32)
  | .summaryLand c => decide (c < 32)
  | .tableSwitch c => decide (c < 32)
  | .partitionHalt p => decide (p < 8)
  | .squashComplete p => decide (p < 8)
  | .applyPass p _ => decide (p < 8)
  | .commitEvent p => decide (p < 8)
  | .memRead _ => true
  | .memWrite _ => true
  | .memAccumulate _ => true
  | .heldRequestExpiry _ _ => true
  | .panFlush _ p => decide (p < 8)
  | .panFlushDrop _ p => decide (p < 8)
  | .panFlushDone p => decide (p < 8)
  | .panSplitWrite _ p s _ => decide (p < 8) && decide (s < 8)
  | .regionWrite _ p i _ _ _ _ => decide (p < 8) && decide (i < 256)
  | .mcThreshWrite _ mc _ => decide (mc < 16)
  | .deviceTempRead mc _ _ _ => decide (mc < 16)
  | .scrubPass mc _ _ _ => decide (mc < 16)
  | .lpddr6ZeroDone k => decide (k < 2)
  | .counterRead _ i => decide (i < 65536)
  | .counterSet _ i _ => decide (i < 65536)
  | .counterAdd _ i _ => decide (i < 65536)
  | .watchArm _ slot _ _ _ _ => decide (slot < 4096)
  | .watchCancel _ slot _ _ _ _ => decide (slot < 4096)
  | .syncGroupWrite _ g _ => decide (g < 256)
  | .barrierWrite _ p b _ => decide (p < 8) && decide (b < 1024)
  | .watchSplitWrite _ p _ => decide (p < 8)
  | .ftCtrlWrite _ _ => true
  | .ftTick => true
  | .timeExchangeTimer => true
  | .syncAdd x => Pkt.wf x
  | .watchReq x => Pkt.wf x
  | .timeReq x => Pkt.wf x
  | .timeResp x => Pkt.wf x
  | .packetRoute port x => decide (port < 36) && Pkt.wf x
  | .packetAdmit _ => true
  | .class0Release k => decide (k < 36)
  | .write x _ _ => Pkt.wf x
  | .readReq x _ _ => Pkt.wf x
  | .readResp x => Pkt.wf x
  | .accumulate x _ _ => Pkt.wf x
  | .collData x => Pkt.wf x
  | .ack x => Pkt.wf x
  | .nak x => Pkt.wf x
  | .ackTimer _ => true
  | .heldAckTimer _ => true
  | .retxTimeout _ => true
  | .txContextReclaim _ => true
  | .rxContextReclaim _ => true
  | .fabCtxReset _ _ _ => true
  | .routeWrite _ d _ => decide (d < 16384)
  | .mcastWrite _ g _ => decide (g < 4096)
  | .frameSlotReceive k _ => decide (k < 36)
  | .leave k _ => decide (k < 36)
  | .join k _ => decide (k < 36)
  | .swap k _ => decide (k < 36)
  | .migrate k => decide (k < 36)
  | .migrationConfirm k _ => decide (k < 36)
  | .migrationBreak k => decide (k < 36)
  | .migrationTimeout k => decide (k < 36)
  | .release k x => decide (k < 36) && decide (x.lane < 9)
  | .resweepTx k lane => decide (k < 36) && decide (lane < 9)
  | .lockLoopTick k lane _ _ _ => decide (k < 36) && decide (lane < 9)
  | .fadeWindow e _ => decide (e < 6)
  | .berWindow k _ => decide (k < 36)
  | .resweepStart k lane _ => decide (k < 36) && decide (lane < 9)
  | .resweepEnd k lane _ _ => decide (k < 36) && decide (lane < 9)
  | .gapRound k => decide (k < 36)
  | .calLoopbackTimer k => decide (k < 36)
  | .calReq x => Pkt.wf x
  | .calAck x => Pkt.wf x
  | .calLoopbackEnd k => decide (k < 36)
  | .discoveryDone k _ _ => decide (k < 36)
  | .lnkAssignWrite _ k _ => decide (k < 36)
  | .linkSignalLoss k => decide (k < 36)
  | .opticsCalibration e _ _ _ => decide (e < 6)
  | .rxSweepRetry k _ => decide (k < 36)
  | .collStart p => decide (p < 8)
  | .collDeadline p entry _ => decide (p < 8) && decide (entry < 4096)
  | .collComplete p entry _ => decide (p < 8) && decide (entry < 4096)
  | .planLoad f m => decide (f < 9) && decide (m < 64)
  | .nop p k => decide (p < 8) && decide (k < 64)
  | .launch p k => decide (p < 8) && decide (k < 64)
  | .coll p k => decide (p < 8) && decide (k < 64)
  | .wait p k => decide (p < 8) && decide (k < 64)
  | .signal p k => decide (p < 8) && decide (k < 64)
  | .commit p k => decide (p < 8) && decide (k < 64)
  | .phaseBegin p k => decide (p < 8) && decide (k < 64)
  | .phaseEnd p k => decide (p < 8) && decide (k < 64)
  | .heavy p k => decide (p < 8) && decide (k < 64)
  | .gap p k => decide (p < 8) && decide (k < 64)
  | .memUse p k => decide (p < 8) && decide (k < 64)
  | .streamRegionSet p k => decide (p < 8) && decide (k < 64)
  | .streamWatchSet p k => decide (p < 8) && decide (k < 64)
  | .drainCaptureDone p => decide (p < 8)
  | .drainWritten p => decide (p < 8)
  | .agreeResult p _ => decide (p < 8)
  | .fillLoad p => decide (p < 8)
  | .mailboxArm f m _ => decide (f < 9) && decide (m < 64)
  | .mailboxDiscard f m _ => decide (f < 9) && decide (m < 64)
  | .hello f m => decide (f < 9) && decide (m < 64)
  | .notifyWait f m => decide (f < 9) && decide (m < 64)
  | .notifyTimeout f m => decide (f < 9) && decide (m < 64)
  | .bar2Map f m => decide (f < 9) && decide (m < 64)
  | .fwLoad f m _ => decide (f < 9) && decide (m < 64)
  | .fwVerify => true
  | .logRead f m => decide (f < 9) && decide (m < 64)
  | .bankClear f m => decide (f < 9) && decide (m < 64)
  | .resetCompute f m => decide (f < 9) && decide (m < 64)
  | .resetFull f m => decide (f < 9) && decide (m < 64)
  | .resetBlock f m => decide (f < 9) && decide (m < 64)
  | .blockResetDone => true
  | .setCap f m => decide (f < 9) && decide (m < 64)
  | .partitionConfig f m => decide (f < 9) && decide (m < 64)
  | .partitionBind f m => decide (f < 9) && decide (m < 64)
  | .partitionReset f m => decide (f < 9) && decide (m < 64)
  | .jobLoad f m => decide (f < 9) && decide (m < 64)
  | .regionSet f m => decide (f < 9) && decide (m < 64)
  | .watchSet f m => decide (f < 9) && decide (m < 64)
  | .routeSet f m => decide (f < 9) && decide (m < 64)
  | .mcastSet f m => decide (f < 9) && decide (m < 64)
  | .fenceSet f m => decide (f < 9) && decide (m < 64)
  | .fenceClear f m => decide (f < 9) && decide (m < 64)
  | .ctxReset f m => decide (f < 9) && decide (m < 64)
  | .laneAssign f m => decide (f < 9) && decide (m < 64)
  | .submit f m => decide (f < 9) && decide (m < 64)
  | .dmaCopyToDevice f m _ _ => decide (f < 9) && decide (m < 64)
  | .dmaCopyToHost f m _ => decide (f < 9) && decide (m < 64)
  | .snapConfig f m => decide (f < 9) && decide (m < 64)
  | .snapSet f m => decide (f < 9) && decide (m < 64)
  | .restore f m => decide (f < 9) && decide (m < 64)
  | .fill f m => decide (f < 9) && decide (m < 64)
  | .fillServe f m => decide (f < 9) && decide (m < 64)
  | .fillCancel f m => decide (f < 9) && decide (m < 64)
  | .resume f m => decide (f < 9) && decide (m < 64)
  | .bar2Read f _ _ => decide (f < 9)
  | .bar2Write f _ _ => decide (f < 9)
  | .functionLevelReset f => decide (f < 9)
  | .hotReset => true
  | .pwrDomainReqWrite _ _ => true
  | .domainPowered d => decide (d < 62)
  | .powerSample _ _ => true
  | .ladderTick _ _ _ => true
  | .dutyWindowStart => true
  | .dutyHold => true
  | .hintPreposition => true
  | .thermalSample _ => true
  | .thermCtrlWrite _ _ => true
  | .coolantLoss => true
  | .thermtrip => true
  | .quenchRecovery => true
  | .powerOn => true
  | .inputUndervoltage => true
  | .inputOvervoltage => true
  | .perstN => true
  | .resetRelease => true
  | .dispatchWatchdog => true
  | .dispatchRestart _ => true
  | .hearthWatchdog => true
  | .hearthEcc => true
  | .stageAdvance => true
  | .startTimeout => true
  | .failCountClear => true
  | .svnAdvance => true
  | .oobReset _ => true
  | .oobBankClear => true
  | .oobSetCap _ => true
  | .oobStandby => true
  | .oobWake => true
  | .oobLogRead _ _ => true
  | .oobAlert _ => true
  | .oobDebugChallenge => true
  | .pldmSensorRead _ => true
  | .pldmFwUpdate _ => true
  | .spdmRequest _ => true
  | .keySet _ _ => true
  | .debugToken _ => true
  | .remoteReset x => Pkt.wf x
  | .voltageSample _ => true
  | .logProgram => true
  | .bootRetainMirror => true
  | .telemetryRefresh => true
  | .alertCauseWrite _ _ => true
  | .registerWrite _ => true
  | .frameSlotSend k => decide (k < 36)
  | .pageCapture p => decide (p < 8)
  | .migrationRetry k => decide (k < 36)
  | .loopbackRetry k => decide (k < 36)
  | .discoveryRetry k => decide (k < 36)
  | .configurationWrite _ => true

end Sys2Proof
end

