-- ==== Sys2Proof/Tests/Slice0.lean ====
section
/-! SUPPORT. Tests: an ill-formed term for each check of WellFormed; states that meet the hypotheses of each statement, clause
by clause; the words and worked examples of the manual. -/

namespace Sys2Proof.Tests

-- One theorem after another: the theorems of this file, elaborated side by side, take more threads than the limit on memory allows.
set_option Elab.async false

open Sys2Proof.Machine

/-- A block of eight bundles, copied, in the first half of the store. -/
def blk : Launch := { half := 0, arg := 0, tag := 0, addr := 0x800000000, bundles := 8, stream := 0, copied := true }

/-- A core that issues its first bundle. -/
def k0 : Core := { run := .issuing, block := some blk, g := [(1, 16), (2, 3), (3, 128), (4, 512)] }

/-- Core 0 is `k`. -/
def sc (k : Core) : State := { cores := [(0, k)] }

theorem ready_k0 : Ready (sc k0) 0 blk :=
  ⟨by decide, by decide, by decide +kernel, by decide +kernel, by decide +kernel, by decide +kernel⟩

/-- ScalarThreeRegisterResults, ScalarOtherResults, ScalarResultSeenByNextBundle. -/
theorem wit_scalar : ((sc k0).coreAhead 0).clean [1, 2] = true ∧ ((sc k0).coreAhead 0).gDue.get 0 5 < ((sc k0).coreAhead 0).cycle + 1 ∧
    (((sc k0).coreAhead 0).sum.get {} 0).poison = false ∧ ((sc k0).core 0).flights = [] := by decide +kernel

/-- ScalarLoadStore: the last word of the local store, the first address beyond it, an address not on a word. -/
theorem wit_load_store :
    let k := (sc { k0 with g := [(1, 0x2FFFF8), (2, 0x300000), (3, 4)] }).coreAhead 0
    let off (r : Nat) := (gRead k r + (0 : BitVec 38).signExtend 64).toNat
    k.clean [1, 2, 3] = true ∧ k.gDue.get 0 5 < k.cycle + 8 ∧ k.err = false ∧ off 1 % 8 = 0 ∧ off 1 ≤ 0x2FFFF8 ∧
      ¬ off 2 ≤ 0x2FFFF8 ∧ ¬ off 3 % 8 = 0 := by decide +kernel

/-- A core in the last delay bundle of a branch, and one in the first. -/
def kBr (n : Nat) (t : Option Nat) : Core := { k0 with branch := some { left := n, target := t } }

theorem ready_kBr : Ready (sc (kBr 1 (some 7))) 0 blk ∧ Ready (sc (kBr 3 none)) 0 blk ∧ Ready (sc (kBr 1 none)) 0 blk :=
  ⟨⟨by decide, by decide, by decide +kernel, by decide +kernel, by decide +kernel, by decide +kernel⟩,
    ⟨by decide, by decide, by decide +kernel, by decide +kernel, by decide +kernel, by decide +kernel⟩,
    ⟨by decide, by decide, by decide +kernel, by decide +kernel, by decide +kernel, by decide +kernel⟩⟩

/-- BranchesWaitThreeBundles: the last bundle of the block as the target, the first place outside it on both sides, a pending branch. -/
theorem wit_branch :
    let k := (sc k0).coreAhead 0
    let tgt (i : BitVec 38) : Int := k.pc + i.toInt
    k.flights = [] ∧ k.branch = none ∧ k.err = false ∧ 0 ≤ tgt 0 ∧ tgt 7 < blk.bundles ∧ ¬ tgt 8 < blk.bundles ∧ ¬ 0 ≤ tgt (-1) ∧
      (k.sum.get {} 3).poison = false ∧ k.gDue.get 0 1 < k.cycle + 1 ∧
      ((sc (kBr 1 (some 7))).coreAhead 0).branch = some { left := 1, target := some 7 } ∧
      ((sc (kBr 3 none)).coreAhead 0).branch = some { left := 3, target := none } ∧
      ((sc (kBr 1 none)).coreAhead 0).branch = some { left := 1, target := none } := by decide +kernel

/-- Partition 0 with all cores, and counters 0 to 255 its own. -/
def scp (k : Core) : State :=
  { cores := [(0, k)], parts := [(0, { valid := true, first := 0, log2 := 5 })], sync := { groups := [(0, { valid := true })] } }

theorem ready_scp : Ready (scp k0) 0 blk ∧ Ready (scp { k0 with g := [(1, 1)] }) 0 blk :=
  ⟨⟨by decide, by decide, by decide +kernel, by decide +kernel, by decide +kernel, by decide +kernel⟩,
    ⟨by decide, by decide, by decide +kernel, by decide +kernel, by decide +kernel, by decide +kernel⟩⟩

/-- ScalarSyncRequests: a counter that takes the addition, a wait and a timed wait whose conditions do not hold yet, the squash of
the next epoch. -/
theorem wit_sync_requests :
    let s := scp { k0 with g := [(1, 1)] }
    let u := s.ahead 0
    (u.counterAdd (u.coreWho 0) 1 1).1 = none ∧ u.sync.permit (u.coreWho 0) .watch 1 = none ∧
      u.sync.holds { cond := 0, view := false, dest := 0, counter := 1, value := 1, time := 0, word3 := 0, who := .core 0, epoch := none } = none ∧
      u.sync.holds { cond := 1, view := false, dest := 0, counter := 0, value := 0, time := 1, word3 := 0, who := .core 0, epoch := none } = none ∧
      (u.coreProv 0).isSome = false ∧
      (s.site 0 blk).prov = none ∧ gRead (s.coreAhead 0) 1 = (s.site 0 blk).e.committed + 1 ∧ u.partOfCore 0 = some 0 ∧
      (u.part 0).attempt < 15 := by decide +kernel

/-- MoveInstructionsIssue: the last descriptor place; the last row pair, its two images at the end of the local store. -/
theorem wit_moves :
    let k := (sc { k0 with g := [(1, 0x2FFF80), (2, 0x2FF000), (3, 0x800)] }).coreAhead 0
    let a (r : Nat) := (gRead k r).toNat
    k.clean [1, 2, 3] = true ∧ a 1 % 128 = 0 ∧ a 1 ≤ 0x2FFF80 ∧ moverLoad k 1 < 16 ∧ (1022 : BitVec 10).toNat % 2 = 0 ∧
      1022 + 2 * 1 ≤ 1024 ∧ k.port.accRead ≤ k.cycle ∧ Form.raw.rowBytes = 2048 ∧ a 2 % 64 = 0 ∧ a 3 % 64 = 0 ∧
      a 2 + (2 * 1 - 1) * a 3 + 2048 ≤ 0x300000 := by decide +kernel

/-- A core whose stationary register 1 holds a tile. -/
def kS (ty : Num.Ty) (cls : Cls) : Core :=
  { k0 with g := [(1, 64), (2, 512), (3, 8)], stat := [(1, { tile := { cls := cls, ty := ty, scaling := .tensor }, ready := true })] }

theorem ready_kS : Ready (sc (kS .e4m3 .fp8)) 0 blk :=
  ⟨by decide, by decide, by decide +kernel, by decide +kernel, by decide +kernel, by decide +kernel⟩

/-- MatrixInstructionsIssue: a tile of 256 vectors loads; the last row of the accumulator streams, in float mode, is zeroed, is loaded. -/
theorem wit_matrix :
    let k := (sc (kS .e4m3 .fp8)).coreAhead 0
    let t := Cls.fp8.ty 0
    let k3 := Num.Scaling.ofCode 0
    let reg := k.stat.get {} 1
    k.clean [1, 2, 3] = true ∧ k.statUse.get 0 1 ≤ k.cycle ∧ Cls.fp8.codeOk 0 = true ∧ Cls.fp8.admits t = true ∧
      Num.scalingOk t k3 (8 % 256) = true ∧ k.port.load ≤ k.cycle ∧ k3.len = 0 ∧
      64 % 64 = 0 ∧ 512 % 64 = 0 ∧ 64 + 255 * 512 + Cls.fp8.rowBytes t ≤ 0x300000 ∧
      reg.ready = true ∧ reg.poison = false ∧ reg.tile.cls = .fp8 ∧ Cls.fp8.pairOk t reg.tile.ty = true ∧ 1023 + 1 ≤ 1024 ∧
      (∀ i < 1, k.rowMode.get false (1023 + i) = (Cls.fp8 == .i8) ∧ k.rowPoison.get false (1023 + i) = false) ∧
      k.port.stream ≤ k.cycle ∧ Form.fp32.rowBytes % 64 = 0 ∧ Form.fp32.rowBytes + Form.fp32.rowBytes ≤ 0x300000 := by decide +kernel

/-- VectorTransfersIssue, VectorLaneResults, PredicateResults, ConversionAndReductionResults: vectors at the ends of the local store;
an even row pair; a table in place; an INT64 source, a scaled target, one of 16 bits. -/
theorem wit_vector :
    let k := (sc { k0 with g := [(1, 0x2FF800), (2, 0x2FEFC0)], tables := [(0, { ready := true }), (15, { ready := true })] }).coreAhead 0
    let a (r : Nat) := (gRead k r).toNat
    k.clean [1, 2] = true ∧ vePoison k [0, 1, 31] [0, 7] [] = false ∧ vePoison k [0] [1, 2] [3] = false ∧ k.port.ls ≤ k.cycle ∧
      k.vDue.get 0 31 < k.cycle + 1 ∧ k.pDue.get 0 7 < k.cycle + 1 ∧ k.sDue.get 0 3 < k.cycle + 6 ∧
      a 1 % 64 = 0 ∧ a 1 + 2048 ≤ 0x300000 ∧ a 1 + 4 * (512 / Seg.w512.width) ≤ 0x300000 ∧
      8 * 255 + 8 * 1 ≤ 2048 ∧ a 1 + 8 * 256 ≤ 0x300000 ∧ k.port.tl ≤ k.cycle ∧ a 2 % 64 = 0 ∧ a 2 + 4160 ≤ 0x300000 ∧
      (k.acc.get {} 1022).poison = false ∧ (k.acc.get {} 1023).poison = false ∧ k.port.acc ≤ k.cycle ∧ k.port.accRead ≤ k.cycle ∧
      k.port.alu ≤ k.cycle ∧ k.port.fn ≤ k.cycle ∧ k.port.red ≤ k.cycle ∧ k.tableReady 0 = true ∧
      k.tableReady 15 = true ∧ (k.tables.get {} 15).poison = false ∧ k.sumOp.get false 3 = false ∧ k.summWaits 3 = false ∧ k.sum.get {} 3 = {} ∧
      cvtOk .fp32 .e4m3 .tensor false 0x80 = true ∧ cvtOk .int64 .fp32 (Num.Scaling.ofCode 0) false 0x7F = true ∧
      halfTy .bf16 = true ∧ Num.Ty.scaled .e4m3 = true := by decide +kernel

/-- A core with one event in flight, due at cycle 0, one cycle before its own. -/
def kF (e : Ev) : Core := { run := .idle, cycle := 1, flights := [{ due := 0, slot := 3, no := 0, tag := 0, bundle := 0, ev := e }] }

/-- LandingsTakeEffect: each landing of Table 04-1 and chapter 03, in flight and due; the last group of eight rows of a zeroing. -/
theorem wit_landings : ∀ e ∈ [Ev.landV 31 1 1, .landP 0 1 1, .landP 7 1 1, .landS 3 {} false, .landS 3 {} true, .landSeen 0 true false true,
      .statReady 1 { cls := .fp8, ty := .e4m3 }, .landRow 1023 {}, .zeroRows 0 8 0 false, .tableSwitch 15 0 false,
      .landStream 0 1 { cls := .fp8, ty := .e4m3, scaling := .tensor, codes := [], scales := [] } true],
    0 < 32 ∧ ((sc (kF e)).core 0).run ≠ .halted ∧ ((sc (kF e)).core 0).flights.map (·.ev) = [e] ∧
      ((sc (kF e)).core 0).flights.all (fun f => f.due ≤ ((sc (kF e)).core 0).cycle) = true := by decide +kernel

/-- LocalStoreTouchesRun: the last word of the local store; a touch of an external bank; a pair read of the last rows, one poisoned. -/
theorem wit_touches :
    (∀ e ∈ [Ev.scSt 0x2FFFF8 1, .veSt 0 [1, 2], .scLd 1 0x2FFFF8], reserved ((sc (kF e)).core 0) ||| ((sc (kF e)).core 0).extBanks = 0 ∧
      banksDistinct (touchLines e) = true ∧ ((sc (kF e)).core 0).cycle < 0 + 7 ∧ 0 < ((sc (kF e)).core 0).cycle ∧
      (touchLines e).all (fun l => !(sc (kF e)).mem.poison.get false (lsAddr 0 (64 * l))) = true) ∧
    (let k : Core := { kF (.scSt 64 1) with extBanks := 2 }
     64 % 8 = 0 ∧ (reserved k ||| k.extBanks).getLsbD (64 / 64 % 64) = true ∧ k.err = false) ∧
    (let k : Core := { kF (.accRead 0 0 0 1020 2 1 .raw 0) with acc := [(1021, { poison := true })] }
     2 ≤ 1 + 1 ∧ (k.acc.get {} (1020 + 2 * 1)).poison = false ∧ (k.acc.get {} (1020 + 2 * 1 + 1)).poison = false ∧
      (k.acc.get {} 1021).poison = true) := by decide +kernel

/-- StoredBundleIssues: the empty word; an addition written bit by bit from Tables 05-3 and 05-4; a reserved opcode. -/
theorem wit_bundles :
    let k := (sc k0).coreAhead 0
    k.bundles.get 0 (4096 * blk.half + k.pc) = 0 ∧ (Bundle.decode 0).isSome = true ∧ (Bundle.decode 0x3F).isNone = true ∧
      (∀ b, Bundle.decode 0 = some b → (issueSlots ((sc k0).site 0 blk) b k).faults = [] ∧ (issueSlots ((sc k0).site 0 blk) b k).ext = [] ∧
        b.ve.freeUse = 0) := by
  refine ⟨by decide +kernel, by decide +kernel, by decide +kernel, ?_⟩
  intro b hb
  have e : Bundle.decode 0 = some {} := by decide +kernel
  rw [e] at hb
  cases hb
  decide +kernel

/-- HoldsLaunchesAndHalts: a core held with no cause left; a launch at the head of the queue, of the next tag; a wait of more than its
limit; a partition asked to halt. -/
theorem wit_holds :
    (let s := sc { k0 with run := .held }
     (s.core 0).run = .held ∧ (s.core 0).waiting = none ∧ (s.core 0).dutyHold = false ∧ (s.core 0).block = some blk) ∧
    (let s := scp { launches := [{ blk with tag := 1 }] }
     (s.core 0).block = none ∧ (s.core 0).waiting = none ∧ (s.core 0).run = .idle ∧ s.partOfCore 0 = some 0 ∧ (1 : Word).toNat ≤ (s.part 0).epoch.toNat + 1 ∧
      (s.part 0).halted = false) ∧
    (let s := { sc { run := .held, waitLimit := 1, waiting := some { since := 0 } } with sync := { clock := 1001 } }
     1000 * (1 : BitVec 32).toNat < s.now - 0 ∧ (s.core 0).waitLimit = 1) ∧
    (let s : State := { parts := [(7, { valid := true, first := 31, haltReq := some (0x0501, none) })] }
     (s.part 7).haltReq = some (0x0501, none) ∧ (s.part 7).commit = none ∧ (s.part 7).holds 31 = true ∧ (s.part 7).holds 30 = false) := by decide +kernel

/-- A region of a pan slice, of every right. -/
def g0 : Region :=
  { base := 0x100000000, limit := 0x100001FFF, valid := true, r := true, w := true, a := true, remR := true,
    remW := true, remA := true, hostR := true, hostW := true, guard := 1 }

/-- Partition 0 with one region, on a pan slice that serves. -/
def sm (g : Region) (x : PMem → PMem := id) : State :=
  { parts := [(0, { valid := true, log2 := 5, mem := x { regions := [(0, g)] } })], mcs := [(0, { online := true })] }

/-- A request of core 0 for the last element of the region. -/
def r0 : Req := { unit := 0x40, addr := 0x100001FFC, len := 4, data := [1, 2, 3, 4] }

theorem admitted_r0 (k : Kind) : Admitted (sm g0) { r0 with kind := k } { part := 0, idx := 0, reg := g0 } := by
  cases k <;> exact ⟨by decide, by decide, by decide +kernel, by decide +kernel, by decide +kernel, by decide +kernel,
    by decide +kernel, by decide +kernel, by decide +kernel⟩

/-- AdmittedAccessesReachBytes, AccumulateCombinesOrIsDeferred: the same requests, an element in place; one provisional, and one in a
DET region whose log has just room. -/
theorem wit_accesses :
    let h : Hit := { part := 0, idx := 0, reg := g0 }
    let s := sm { g0 with det := true } fun m => { m with deferSize := 128 }
    0 < r0.len ∧ r0.len = r0.data.length ∧ h.reg.cache = false ∧ (sm g0).mem.poisoned (h.target r0) 4 = false ∧
      ((sm g0).part 0).snap.drain = none ∧ r0.addr % 4 = 0 ∧ h.target r0 % 4 = 0 ∧ (sm g0).mem.cache.get none (h.target r0 / 128) = none ∧
      (provOf true 1 ((sm g0).part 0).epoch == .provisional) = true ∧ (s.part 0).mem.used + 128 ≤ (s.part 0).mem.deferSize := by
  decide +kernel

theorem admitted_deferred :
    Admitted (sm { g0 with det := true } fun m => { m with deferSize := 128 }) { r0 with kind := .acc, ty := 9 }
      { part := 0, idx := 0, reg := { g0 with det := true } } ∧
    Admitted (sm g0 fun m => { m with deferSize := 128 }) { r0 with kind := .acc, ty := 9, prov := true, epochLo := 1 }
      { part := 0, idx := 0, reg := g0 } := by
  constructor <;> exact ⟨by decide, by decide, by decide +kernel, by decide +kernel, by decide +kernel, by decide +kernel,
    by decide +kernel, by decide +kernel, by decide +kernel⟩

/-- RequestsRefusedOrHeld: the first byte beyond the pan, one beyond the region, an entry without W, a stale epoch, one not yet begun. -/
theorem wit_refused :
    (sm g0).partOfUnit 0x40 = some 0 ∧ zoneOf 0x1C0000000 1 = .none ∧ zoneOf 0x1BFFFFFFF 1 = .pan ∧ zoneOf 0x1BFFFFFFF 2 = .none ∧
      zoneOf 0x100002000 4 = .pan ∧ (sm g0).hit [0] 0x100002000 4 = none ∧ (sm g0).hit [0] 0x100001FFE 4 = none ∧
      (sm { g0 with w := false }).hit [0] r0.addr 4 = some { part := 0, idx := 0, reg := { g0 with w := false } } ∧
      provOf true 3 0 = .stale ∧ provOf true 2 0 = .hold ∧ (sm g0).counted (targetOf r0.addr) < 64 := by decide +kernel

/-- A COMMIT under way whose deferral log holds one record. -/
def sCommit (l : List DeferRec) (a : Bool) : State :=
  { parts := [(0, { valid := true, log2 := 5, commit := some { stream := 0, epoch := 1, applied := a }, mem := { regions := [(0, g0)], deferLog := l } })],
    mcs := [(0, { online := true })] }

/-- One element to add at the end of the region. -/
def d0 : DeferRec :=
  { srcId := 0, unit := 0x40, seq := 0, addr := 0x100001FFC, phys := 0x100001FFC, data := [0, 0, 0x80, 0x3F], ty := 9, op := 0,
    epoch := 1, prov := false, det := true }

/-- PairedViewsAndCommit: the ends of a paired region; the event with nothing left to apply; a pass with one record. -/
theorem wit_commit :
    (let g : Region := { g0 with paired := true }
     g.limit + 1 = g.base + 2 * 4096 ∧ (g.phys 0x100001FFF) = (0x100001FFF, true) ∧
      ({ g with side := true }.phys 0x100001FFF) = (0x100000FFF, true)) ∧
    ((sCommit [] true).part 0).commit = some { stream := 0, epoch := 1, applied := true } ∧
    ((sCommit [] true).part 0).squash ≠ some 1 ∧ ((sCommit [] true).part 0).mem.passOrder 1 = [] ∧ ((sCommit [d0] false).part 0).mem.deferLog = [d0] ∧ d0.data.length = 4 ∧
    d0.phys % 4 = 0 ∧ (sCommit [d0] false).mem.poisoned d0.phys 4 = false := by decide +kernel

/-- MemoryRegistersAndControllers: the writes that are taken; a controller online, in training; the last unit of a pan slice; a request
held for 10 ms. -/
theorem wit_mem_registers :
    (∃ u, (sm g0).regionPut 0 255 0x10000000000 0x10000000FFF 0x7 0 = .ok u) ∧ (∃ u, (sm g0).splitPut 0 7 0 = .ok u) ∧
    ((sm g0 fun m => { m with flushBusy := true }).part 0).mem.flushBusy = true ∧ (sm g0).mem.wf = true ∧
    ({ unit := 0x40 } : Who).isDispatch = false ∧ ((sm g0).mc 0).online = true ∧
    ({ mcs := [(15, { online := true, throttle := 0 })] } : State).mc 15 = { online := true, throttle := 0 } ∧
    targetOf 0x100000000 = 0 ∧ zoneAt 0x100000000 ≠ .none ∧
    (({ mcs := [(15, { training := true })] } : State).mc (14 + 1)).training = true ∧ targetOf 0x02000000FFFF = 14 + 1 ∧
    (let s : State := { mem := { held := [(0, [{ req := { r0 with kind := .write }, since := 0, timed := true, part := 0 }])] },
                        sync := { clock := 10000000 } }
     ∃ h, (s.heldAt 0)[0]? = some h ∧ h.timed = true ∧ h.since + 10000000 ≤ s.now ∧ h.req.origin = .plain) := by
  refine ⟨⟨_, rfl⟩, ⟨_, rfl⟩, ?_⟩
  refine ⟨by decide +kernel, by decide +kernel, by decide, by decide +kernel, by decide +kernel, by decide +kernel, by decide +kernel,
    by decide +kernel, by decide +kernel, ⟨_, rfl, rfl, by decide, rfl⟩⟩

/-- MemoryRegistersAndControllers: no request waits beyond the places of its target. -/
theorem wit_none_parked : ({ mem := { held :=
    [(0, [{ req := { r0 with kind := .write }, since := 0, timed := true, part := 0 }])] } } : State).noneParked := by
  intro e he h hh
  simp at he
  subst he
  simp at hh
  subst hh
  rfl

/-- PairedViewsAndCommit: a COMMIT whose epoch is being squashed. -/
theorem wit_commit_squashed :
    let s : State := { parts := [(0, { valid := true, squash := some 1, commit := some { stream := 0, epoch := 1 } })] }
    (s.part 0).squash = some 1 ∧ (s.part 0).commit = some { stream := 0, epoch := 1 } := by decide +kernel

/-- BranchesWaitThreeBundles, ScalarLoadStore: no pair read in flight, and one that is not due yet. -/
theorem wit_pairs_past : ((sc k0).coreAhead 0).pairsPast ∧
    ({ flights := [{ due := 1, slot := 1, no := 0, tag := 0, bundle := 0, ev := .accRead 0 0 0 0 2 1 .raw 0 }] } : Core).pairsPast := by
  have e : ((sc k0).coreAhead 0).flights = [] := by decide +kernel
  refine ⟨by simp [Core.pairsPast, e], ?_⟩
  intro f hf _
  simp at hf
  subst hf
  decide
/-- A sync unit whose first two groups belong to partition 0, the second epoch-scoped. -/
def y0 : Sync := { groups := [(0, { valid := true, host := true }), (1, { valid := true, epoch := true })] }

/-- Core 0 of partition 0, and a remote module, at the sync unit. -/
def w0 : SWho := { unit := 0x40, part := some 0 }
def wRemote : SWho := { unit := 0x68, remote := true }

/-- CounterOperations, CounterRefusals: the last counter of a group; who is served, and each refusal of Table 07-1. -/
theorem wit_counters :
    let x : Sync := { y0 with barriers := [(0, { a := 252, n := 2, valid := true })] }
    y0.permit w0 .read 511 = none ∧ y0.barrierOf 511 = none ∧ x.barrierOf 252 = some { a := 252, n := 2, valid := true } ∧
      x.barrierOf 255 ≠ none ∧ y0.permit w0 .set 511 = none ∧ y0.permit { w0 with prov := true } .add 511 = none ∧
      (y0.group 511).epoch = true ∧ y0.unwatched 511 ∧ (y0.group 512).valid = false ∧ (y0.group 0).valid = true ∧
      (y0.group 0).remAdd = false ∧ (y0.group 0).host = true ∧ (y0.group 256).host = false ∧ wRemote.remote = true ∧
      (y0.group 0).part ≠ 7 ∧ (y0.group 0).epoch = false ∧ x.permit w0 .set 252 = none ∧ w0.unit ≠ 0x61 := by
  unfold Sync.unwatched; decide +kernel

/-- WatchesArmAndFire: core 0 arms its own slot for a value not yet reached, for one already reached; a malformed entry; an armed slot. -/
theorem wit_watches :
    let w (v : Word) := mkWatch (0 ||| 4) v 0 0 w0.waiter none none
    y0.owns w0 4064 = true ∧ y0.watchBad 4064 (0 ||| 4) 0 = false ∧ y0.watches.get none 4064 = none ∧ y0.permit w0 .watch 0 = none ∧
      y0.holds (w 1) = none ∧ y0.holds (w 0) ≠ none ∧ (w 0).dest = 0 ∧ y0.watchBad 4064 (0 &&& ~~~4) 0 = false ∧ y0.owns w0 4065 = false ∧
      y0.watchBad 4064 (3 ||| 4) 0 = true ∧
      ({ y0 with watches := [(4064, some (w 1))] } : Sync).watches.get none 4064 ≠ none ∧ (w 1).counter = 0 ∧ (w 1).cond = 0 ∧
      (w 1).who = .core 0 ∧ (w 1).view = false ∧ (w 1).value.toNat ≤ (y0.counters.get 0 0 + 1).toNat := by decide +kernel

/-- A barrier of two slots' weight `n` at counters 0 to 3, its counters as given. -/
def yB (n : Nat) (l : Tab Word) : Sync := { y0 with barriers := [(0, { a := 0, n := n, valid := true })], counters := l, provs := l }

/-- BarrierRounds: round 2, current slot in counter 2: each judgement of an ARRIVE word at its boundary (Table 07-9). -/
theorem wit_barrier :
    (yB 2 []).permit w0 .add 0 = none ∧ (yB 2 []).barrierOf 0 = some { a := 0, n := 2, valid := true } ∧
      (∀ k < 4, (yB 2 []).unwatched (0 + k)) ∧
      ¬ (2 / 4 ≠ 0 ∧ 2 / 4 < 8192) ∧ (32766 / 4 ≠ 0 ∧ 32766 / 4 < 8192) ∧ ¬ (32768 / 4 < 8192) ∧
      (6 % 4 = (0 + 2) % 4) ∧ (7 % 4 = (0 + 3) % 4) ∧ (4 % 4 = 0 % 4) ∧ (5 % 4 = (0 + 1) % 4) ∧
      (2 < ((yB 2 [(2, 2)]).val false 2).toNat + 4 / 4) ∧ ((yB 2 []).val false 2).toNat + 4 / 4 < 2 ∧
      ((yB 2 []).val false 2).toNat ≠ 2 ∧ ((yB 2 []).val false 3).toNat + 8 / 4 ≤ 2 ∧
      (y0.group 256).epoch = true ∧ ((yB 2 [(2, 1)]).val false 2).toNat + 4 / 4 = 2 ∧ ((yB 2 [(2, 1), (3, 2)]).val false 3).toNat = 2 := by
  unfold Sync.unwatched; decide +kernel

/-- SyncRegisterWrites: a barrier entry of partition 0 in its group; one with N of 0; one that is not aligned; one over another's counters;
the last split, one beyond it, and one over another partition's; the root, and a new follower. -/
theorem wit_sync_registers :
    let e := barrierOfWord (0x10000000000 + 0x20000 + 252)
    e = { a := 252, n := 2, valid := true } ∧ (y0.group e.a).valid = true ∧ (y0.group e.a).part = 0 ∧
      (barrierOfWord 0x10000000000).n = 0 ∧ (barrierOfWord (0x10000010000 + 2)).a % 4 ≠ 0 ∧
      (∀ d f, d ≠ 0 → (d, f) ∈ y0.barriers → f.valid = true → f.a + 3 < e.a ∨ e.a + 3 < f.a) ∧
      (splitOf (3583 + 0x1000)).first + (splitOf (3583 + 0x1000)).count ≤ 3584 ∧
      ¬ (splitOf (3583 + 0x2000)).first + (splitOf (3583 + 0x2000)).count ≤ 3584 ∧ (0x3 : BitVec 32).getLsbD 1 = true ∧
      (0x1 : BitVec 32).getLsbD 1 = false ∧ (0x1 : BitVec 32).getLsbD 0 = true ∧ y0.ctrl.enable = false ∧ ({ unit := 0x40 } : Who).isDispatch = false := by
  refine ⟨by decide +kernel, by decide +kernel, by decide +kernel, by decide +kernel, by decide +kernel, ?_, by decide +kernel⟩
  intro d f _ h
  simp [y0] at h

/-- Links 0 and 6, trained, up, each to a module of its number plus 1. -/
def lnk (peer : Nat) : OLink :=
  { trained := true, peerId := peer,
    lanes := (List.range 9).map fun n => (n, { txState := 3, rxState := 3, toneOk := true }) }

/-- A module 5 whose link 0 leads to module 1. -/
def sf (x : Fab) : State :=
  { opt := { links := [(0, lnk 1)], engines := [(0, { calDone := true, laserOk := true })] }, pwr := { on := 0x1000000000000 },
    fab := { x with id := 5, routes := [(1, { primary := 1, valid := true }), (5, { here := true, valid := true })] } }

/-- A transmit half to module 1. -/
def tx1 (l : List OutPkt) : TxHalf := { key := .uni 1, out := l }

theorem way_link (s : State) (e : s.fab.routes.get {} 1 = { primary := 1, valid := true }) (u : s.up 0 = true) :
    ∀ x : Pkt, x.dst = 1 → x.mcast = false → x.hops = 0 → x.vc = 0 → ∃ k, s.way x = .link k := by
  intro x h _ hh hv
  have hp : ∀ c, s.pickPort (portsOf (1 : BitVec 36)) c 0 = some 0 := by
    intro c
    have hq : portsOf (1 : BitVec 36) = [0] := by decide +kernel
    rw [hq]
    simp [State.pickPort, u]
  refine ⟨0, ?_⟩
  simp only [State.way, h, e, hv, hp, hh]
  simp

/-- Module 5 can send to module 1. -/
theorem canSend_1 : CanSend (sf { tx := [tx1 []] }) 1 (tx1 []) :=
  ⟨by decide, by decide, by decide, by decide, by decide, by decide, way_link _ (by decide +kernel) (by decide +kernel)⟩

/-- A packet of module 1 to module 5. -/
def pk (ty cls : Nat) (pay : List Byte) (off : Nat := 0) : Pkt :=
  { dst := 5, src := 1, cls := cls, ty := ty, len := pay.length, syn := true, offset := off, payload := pay }

/-- `b` and zeros, 32 bytes in all. -/
def pay32 (b : List Byte) : List Byte := b ++ List.replicate (32 - b.length) 0

/-- A new packet that arrives where no window exists yet, and the last of an existing one. -/
theorem arrives_1 (ty cls : Nat) (pay : List Byte) (off : Nat) (h : (pk ty cls pay off).formOk = true) :
    Arrives (sf {}) (pk ty cls pay off) { key := .uni 1 } 0 :=
  ⟨by simp [State.mine, pk, sf], by simp [pk, sf], h, by decide +kernel, .inr ⟨rfl, by decide +kernel, rfl⟩, .inr ⟨rfl, rfl, rfl⟩,
    by simp [pk], by simp [pk], by simp⟩

theorem arrives_last : Arrives (sf { rx := [{ key := .uni 1, base := some 2 }] }) { pk tySync 0 (pay32 [1]) with seq := 65 }
    { key := .uni 1, base := some 2 } 2 :=
  ⟨by decide +kernel, by decide +kernel, by decide +kernel, by decide +kernel, .inl (by decide +kernel), .inl rfl, by decide +kernel,
    by decide +kernel, by decide +kernel⟩

/-- FabricTimeKept: a FREE unit not loaded, a LOCKED one; the eighth exchange within 5 ns; an offset of 1,001 ns; a follower whose link to its
parent is up; TIME_REQ and TIME_RESP as Table 07-5 gives them, one that answers the exchange under way. -/
theorem wit_time :
    ({} : Sync).watches = [] ∧ ({} : Sync).ftState = .free ∧ ({} : Sync).loaded = false ∧
      (({ ftState := .acquire, stepped := true, goodEx := 7 } : Sync).exchange 5 0 0).ftState = .locked ∧
      (({ ftState := .acquire, stepped := true, goodEx := 7 } : Sync).exchange 6 0 0).ftState = .acquire ∧
      (({ ftState := .locked } : Sync).exchange (-1000) 0 0).ftState = .locked ∧ (({ ftState := .locked } : Sync).exchange (-1001) 0 0).ftState = .acquire ∧
      (({ ftState := .holdover, rate := 200 } : Sync).exchange 0 0 7).rate = 7 ∧ (sf {}).up (sf {}).timeLink = true ∧ ((sf {}).link 0).peerId = 1 ∧ syncForm (pk tySync 0 (pay32 [0x10])) = true ∧
      (pk tySync 0 (pay32 [0x10])).f 0 1 = 0x10 ∧ syncForm (pk tySync 0 (pay32 [0x11])) = true ∧ (pk tySync 0 (pay32 [0x11])).f 0 1 = 0x11 ∧
      (pk tySync 0 (pay32 [0x11])).f 24 2 = 0 ∧ (pk tySync 0 (pay32 [0x11])).formOk = true := by decide +kernel

/-- SyncPacketsPerform: an addition to a counter that grants it, to one that does not; a watch with a free remote slot, with none; a payload
that is no operation. -/
theorem wit_sync_packets :
    let y : Sync := { groups := [(0, { valid := true, remAdd := true, remWatch := true })] }
    let a := pk tySync 0 (pay32 ([1] ++ List.replicate 23 0 ++ [0xFF, 0xFF]))
    let q := pk tySync 0 (pay32 ([2, 0, 0, 0, 1, 0, 0, 0, 1]))
    syncForm a = true ∧ a.f 0 1 = 1 ∧ a.formOk = true ∧ y.permit a.who .add (a.f 2 2) = none ∧ y.barrierOf 0 = none ∧
      y0.permit a.who .add 0 = some Err.counterRemote ∧ syncForm q = true ∧ q.f 0 1 = 2 ∧ y.permit q.who .watch 0 = none ∧
      y.freeSlot 3808 256 = some 3808 ∧
      ({ y with watches := (List.range 256).map fun n => (3808 + n, some (mkWatch 0 0 0 0 .rake none none)) } : Sync).freeSlot 3808 256 = none ∧
      syncForm (pk tySync 0 (pay32 [0])) = false := by decide +kernel

/-- EndpointWindow: a malformed header; a fenced module; a packet performed before, the first beyond the window, one without a window. -/
theorem wit_window :
    let x := pk tyWrite 2 (pay32 [])
    let s (h : RxHalf) : State := sf { rx := [h] }
    ({ x with rsvd := 1 } : Pkt).formOk = false ∧ x.formOk = true ∧ (pk tyReadReq 2 []).formOk = true ∧ (pk tyAccumulate 1 (pay32 [])).formOk = true ∧
      (pk tyCollData 1 (pay32 [])).formOk = true ∧ (sf {}).mine x = true ∧ x.src ≠ (sf {}).fab.id ∧
      ({ (sf {}) with fab := { id := 5, routes := [(5, { fence := true })] } } : State).fab.routes.get {} 5 = { fence := true } ∧
      (s { key := .uni 1, base := some 0, map := 2 }).fab.rxOf x.rxKey = some { key := .uni 1, base := some 0, map := 2 } ∧
      (2 : BitVec 64).getLsbD ((1 + 2 ^ 16 - 0) % 2 ^ 16) = true ∧ 2 ^ 15 ≤ (65535 + 2 ^ 16 - 0) % 2 ^ 16 ∧
      64 ≤ (64 + 2 ^ 16 - 0) % 2 ^ 16 ∧ (64 + 2 ^ 16 - 0) % 2 ^ 16 < 2 ^ 15 ∧ ({ x with syn := false } : Pkt).syn = false := by decide +kernel

/-- A module 5 with a region that grants remote access. -/
def sr : State := { sf {} with parts := (sm g0).parts, mcs := (sm g0).mcs }

theorem arrives_sr (x : Pkt) (h : x ∈ [pk tyWrite 2 [1, 2, 3, 4] 0x100001FFC, { pk tyReadReq 2 [] 0x100001FFC with len := 4 },
      pk tyAccumulate 1 ([0x40, 9] ++ List.replicate 14 0 ++ [0, 0, 0x80, 0x3F]) 0x100001FFC, pk tyWrite 2 [1] 0x1C0000000]) :
    Arrives sr x { key := .uni 1 } 0 := by
  simp only [List.mem_cons, List.not_mem_nil, or_false] at h
  obtain rfl | rfl | rfl | rfl := h <;>
    exact ⟨by decide +kernel, by decide +kernel, by decide +kernel, by decide +kernel, .inr ⟨rfl, by decide +kernel, rfl⟩, .inr ⟨rfl, rfl, rfl⟩,
      by decide +kernel, by decide +kernel, by simp⟩

/-- PacketsReachMemory: a write, a read and an FP32 addition at the end of a region; an offset beyond the pan. -/
theorem admitted_packets : ∀ k ∈ [Kind.read, .write, .acc], Admitted sr
    ((pk tyWrite 2 [] 0x100001FFC).req (if k = .acc then 0x40 else 0) k [1, 2, 3, 4] 4 .clean none) { part := 0, idx := 0, reg := g0 } := by
  intro k h
  simp only [List.mem_cons, List.not_mem_nil, or_false] at h
  obtain rfl | rfl | rfl := h <;> exact ⟨by decide, by decide, by decide +kernel, by decide +kernel, by decide +kernel, by decide +kernel,
    by decide +kernel, by decide +kernel, by decide +kernel⟩

theorem wit_packets :
    let r := (pk tyAccumulate 1 [0x40, 9] 0x100001FFC).req 0x40 .acc [0, 0, 0x80, 0x3F] 4 .clean none
    r.ty = 9 ∧ r.op = 0 ∧ sr.counted (targetOf 0x100001FFC) < 64 ∧ sr.mem.poisoned 0x100001FFC 4 = false ∧
      zoneOf 0x1C0000000 1 = .none ∧
      sr.way { dst := 1, src := 5, cls := 2, ty := tyReadResp, len := 4 } = .link 0 := by decide +kernel

/-- An outstanding write to module 1. -/
def o1 (who : TxOrigin) : OutPkt := { pkt := { dst := 1, src := 5, cls := 2, ty := tyWrite, len := 1, payload := [1] }, who := who, timer := 0 }

/-- A mover with descriptor 7 active, of partition 0. -/
def dsc : Active := { d := (readDesc ([0x01, 0x99] ++ List.replicate 126 0)).get (by decide +kernel), seq := 7, tag := 0, key := 0, draw := 0 }
def sMv (x : Fab) : State :=
  { sf x with parts := (sm g0).parts, mcs := (sm g0).mcs, cores := [(0, { mv := [(0, { active := [dsc] })] })] }

/-- AcknowledgementsRelease: ACK and NAK of what is outstanding; a mover's packet; a read response that an ACK has released. -/
theorem wit_acks :
    let ack := { pk tyAck 1 [] with seq := 1 }
    let nak := pk tyNak 1 (pay32 [1])
    let h := tx1 [o1 .none]
    let o := { o1 (.mover 0 0 7) with pkt := { (o1 .none).pkt with ty := tyReadReq } }
    ack.formOk = true ∧ nak.formOk = true ∧ (0 : Nat).testBit 12 = false ∧ (8192 : Nat).testBit 13 = true ∧
      (sf { tx := [h] }).fab.txOf (.uni 1) = some h ∧ nak.nakKey = .uni 1 ∧ h.out.find? (fun q => q.pkt.seq == 0) = some (o1 .none) ∧
      ((sMv {}).mover 0 0).active = [dsc] ∧ dsc.stopped = false ∧ (sMv {}).partOfCore 0 = some 0 ∧ ((sMv {}).part 0).haltReq = none ∧
      (sf { reads := [o] }).asked { pk tyReadResp 2 [9] with seq := 0, offset := 0 } = some o ∧
      (sf { tx := [h] }).fab.noneWaits ∧ nak.aux ≠ Err.fenced ∧ { nak with aux := Err.fenced }.nakKey = .uni 1 ∧
      ((sMv {}).mover 0 0).err = false := by unfold Fab.noneWaits; decide +kernel

/-- EndpointTimers: each timer at its time and one nanosecond before it; the last expiry but one, and the last. -/
theorem wit_timers :
    let s (c : Nat) (x : Fab) : State := { sf x with sync := { clock := c } }
    (s 1000 {}).now = 0 + 1000 ∧ (s 999 {}).now < 0 + 1000 ∧ (s 25000 {}).now = 25000 ∧ (s 5000000 {}).now = 0 + 5000000 ∧
      (s 10000000 {}).now = 10000000 ∧ (0 : Nat) + 1000 * (s 0 {}).fab.timeout = 50000 ∧ 6 + 1 < (s 0 {}).fab.retryMax ∧
      (s 0 {}).fab.retryMax ≤ 7 + 1 ∧ (sf {}).way { (o1 .none).pkt with retx := true } = .link 0 ∧ ({} : Fab).parked = [] := by decide +kernel

/-- RouterForwards: a unicast packet on its way, with its last hop; one of a fenced and of an unknown destination; a group; a token. -/
theorem wit_router :
    let x : Pkt := { pk tyWrite 2 [1] with dst := 1, src := 2 }
    let s : State := { sf {} with fab := { id := 5, routes := [(1, { primary := 1, valid := true, dateline := 1 }), (3, { fence := true })],
                                           groups := [(0, { mask := 1, valid := true })] } }
    s.up 0 = true ∧ x.formOk = true ∧ s.way x = .link 0 ∧ ((s.fab.routes.get {} 1).dateline.getLsbD 0) = true ∧
      (s.fab.routes.get {} 3).fence = true ∧ (s.fab.routes.get {} 4).valid = false ∧ (s.fab.routes.get {} 4).fence = false ∧
      (s.fab.routes.get {} 1).primary.getLsbD 0 = true ∧ s.way { x with hops := 14 } = .link 0 ∧ s.way { x with hops := 15 } = .drop Err.routeHops ∧
      ({ x with mcast := true, dst := 0 } : Pkt).formOk = true ∧ (s.fab.groups.get {} 0).valid = true ∧ (s.fab.groups.get {} 0).leaf = 0 ∧
      (({ c0wait := [x] } : Port).refill 0).tokens ≠ 0 ∧ (sf {}).fab.routes.get {} 5 = { here := true, valid := true } := by decide +kernel

/-- PacketsAndTables: a local entry of this module, one of another module, reserved bits; a leaf inside and outside the mask. -/
theorem wit_tables :
    let x : Pkt := { pk tyWrite 2 [1] with dst := 1 }
    ({ x with src := 5 } : Pkt).formOk = true ∧ (routeOf (2 ^ 108)).here = true ∧ (routeOf (2 ^ 108)).primary = 0 ∧
      (2 ^ 110 : BitVec 128).toNat < 2 ^ 111 ∧ ¬ (2 ^ 111 : BitVec 128).toNat < 2 ^ 111 ∧
      (∀ k < 36, (groupEntryOf (1 + 2 ^ 40)).leaf.getLsbD k = true → (groupEntryOf (1 + 2 ^ 40)).mask.getLsbD k = true) ∧
      (groupEntryOf (2 ^ 40)).leaf.getLsbD 0 = true ∧ (groupEntryOf (2 ^ 40)).mask.getLsbD 0 = false ∧
      ((sMv {}).mover 0 0).active = [dsc] ∧ ({ unit := 0x40 } : Who).isDispatch = false := by decide +kernel


/-- PacketsAndTables: a descriptor of a fenced module's data, its first element not read yet; a multicast packet to a group of no members. -/
theorem wit_refused_packets :
    let b : Active := { dsc with d := { dsc.d with srcRemote := true, srcId := 3 } }
    let mv : Move := { c := 0, m := 0, seq := 7, what := .elems, k2 := 0, k1 := 0, k0 := 0, n := 1 }
    let s : State := { sMv {} with cores := [(0, { mv := [(0, { active := [b] })] })], fab := { id := 5, routes := [(3, { fence := true })] } }
    b.readAt mv.what = some 3 ∧ b.readSpan mv = some (0, 4) ∧ b.unread mv = true ∧ (s.fab.routes.get {} 3).fence = true ∧
      (s.mover 0 0).active = [b] ∧ b.stopped = false ∧ s.partOfCore 0 = some 0 ∧ (s.part 0).halted = false ∧ (s.part 0).haltReq = none ∧
      ({ pk tyWrite 2 [1] with src := 5, mcast := true, dst := 9 } : Pkt).formOk = true ∧ (s.fab.groups.get {} 9).members = 0 := by
  decide +kernel

/-- A module whose link 0 is `l`. -/
def so (l : OLink) (clock : Nat := 0) : State := { sf {} with opt := { (sf {}).opt with links := [(0, l)] }, sync := { clock := clock } }

/-- MapsChangeAndMigrate: an announced LEAVE, JOIN and SWAP at its slot; a migration announced, confirmed, at its last slot, and timed out. -/
theorem wit_maps :
    let l := lnk 1
    let a (op lane : Nat) : Announce := { op := op, lane := lane, first := 0, effect := 8 }
    let m : Migration := { slot := 3, lane := 3, effect := 8, begun := 0 }
    ((so { l with ann := [a 1 7], slot := 8 }).link 0).ann = [a 1 7] ∧ (a 1 7).effect ≤ 8 ∧ 7 < (a 1 7).effect ∧ 7 ∈ l.map false ∧
      8 ∉ l.map true ∧ ({ l with rxMap := [0, 1, 2, 3, 4, 5, 6] }.map true).length < 8 ∧ l.spare false < 9 ∧ l.spare false ≠ 7 ∧
      ((so { l with ann := [a 4 3], mig := some m }).link 0).mig = some m ∧ (a 4 3).op = 4 ∧ m.confirmed = false ∧ m.lane ≠ l.txSpare ∧
      m.begun + 10000 ≤ (so l 10000).now ∧ 0 + 1 < 3 ∧ 3 ≤ 2 + 1 ∧ l.txMap[3]? = some 3 ∧ l.txSpareOk = true ∧
      ({ l with txSpare := 15 } : OLink).txSpareOk = false := by decide +kernel

/-- RingsLockAndResweep: a lane that carries data and the spare that does not; a ring locked, in a sweep; the tone of the lane, another's, none;
a gap with just one round left. -/
theorem wit_rings :
    let l := lnk 1
    let w (n : Nat) : OLink := { l with lanes := [(n, { rxState := 1, txState := 1, rxSweep := .due, txSweep := .due })] }
    l.ann = [] ∧ l.loop = none ∧ l.loopAsked = none ∧ 7 ∈ l.txMap ∧ l.mig = none ∧ (l.lane 8).rxState = 3 ∧ 4095 < 4096 ∧ 8 ∉ l.map true ∧
      (l.lane 8).rxState ∉ [0, 1] ∧ ((l.modLane 8 fun y => { y with rxSweep := .due }).lane 8).rxSweep ≠ .none ∧ ((w 8).lane 8).rxState = 1 ∧
      7 ∈ l.rxMap ∧ l.reqs = [] ∧
      (let g : GapWin := { start := 0, stop := 2500000, rounds := 1 }
       ({ l with gaps := [g] } : OLink).gaps = [g] ∧ g.rounds ≠ 0 ∧ g.start ≤ (so l).sync.ft.toNat ∧ g.start + 2500000 ≤ g.stop) := by
  decide +kernel

/-- RingsLockAndResweep: a lane that left the map and is to resweep; a ring that found codes that fit and none; its second phase, as the
spare and as a lane that joins. -/
theorem wit_sweeps :
    let out (x : Lane) : OLink := { lnk 1 with rxMap := [0, 1, 2, 3, 4, 5, 6], rxRole := [(7, 6), (8, 2)], txMap := [0, 1, 2, 3, 4, 5, 6],
                                               txRole := [(7, 6), (8, 2)], lanes := [(7, x)] }
    let no : OLink := { out {} with txSpare := 15, rxSpare := 15 }
    (out {}).trained = true ∧ (out {}).migrating = false ∧ 7 ∉ (out {}).map true ∧ 7 ∉ (out {}).map false ∧
      ((out { txState := 3, rxState := 4 }).lane 7).rxState ∉ [0, 1, 2] ∧ (out {}).role true 7 = 6 ∧ (out {}).role false 7 = 6 ∧
      ((out { rxState := 1 }).lane 7).rxState = 1 ∧ ((out { txState := 2, rxState := 2, txBack := .spare }).lane 7).txState = 2 ∧
      ((4095 : Nat), some 7).1 < 4096 ∧ ¬ ((4096 : Nat), some 7).1 < 4096 ∧ ((0 : Nat), some 7).2 ≠ some 8 ∧
      9 ≤ no.txSpare ∧ 9 ≤ no.rxSpare ∧ ({ txState := 2, txBack := .join } : Lane).stage < 2 ∧ ({} : Lane).askedOut = none := by
  decide +kernel

/-- LinksMeasureAndCarry: an engine in service; the two sides of a bit error rate of 1280; a frame slot with a bad data lane, with none; a queue
of one packet; the loss of the link to the parent. -/
theorem wit_links :
    let s := so (lnk 1)
    let q : Pkt := pk tySync 0 (pay32 [1])
    s.domainOn (48 + 0 / 6) = true ∧ (s.opt.engines.get {} 0).calDone = true ∧ (s.link 0).trained = true ∧ s.up 0 = true ∧
      (s.link 0).rxMap.Nodup ∧ (s.link 0).rxMap[7]? = some 7 ∧ (s.link 0).reqs = [] ∧
      (∀ m ∈ (s.link 0).rxMap, m < 9 ∧ ((s.link 0).lane m).rxState = 3 ∧ ((s.link 0).lane m).toneOk = true) ∧
      ((so { lnk 1 with lanes := [(7, { rxState := 4 })] }).up 0 = true) ∧ ({ lane := 7, off := 8 } : LaneRx).off > 7 ∧
      (s.link 0).ann = [] ∧ (s.link 0).heard = [] ∧ (s.link 0).peerEnc = false ∧ s.encActive 0 = false ∧ q.payload.length = q.body ∧
      (∀ m < 9, ((s.link 0).lane m).txState ≠ 0 ∧ (({ lnk 1 with lanes := [] } : OLink).lane m).txState = 0) ∧
      100000 * 1 ≤ 100000 ∧ 99999 < 100000 * 1 ∧ (100000 : Nat) < 2 ^ 40 ∧ q.wire ≤ 64 ∧ q.src ≠ s.fab.id ∧ (s.port 0).used = [] ∧
      ({ s with sync := { ctrl := { enable := true, altEn := true, altLink := 1 }, ftState := .locked } } : State).sync.ctrl.altLink ≠ 0 ∧
      ({ s with sync := { ctrl := { enable := true, parentLink := 6 }, ftState := .locked } } : State).up 6 = false ∧
      ({ opt := { links := [(0, lnk 1), (6, lnk 7)] }, fab := { id := 5 } } : State).up 6 = true := by
  decide +kernel

/-- LinksTrainAndLoopBack: an engine to calibrate; a dark link that finds light, with every transmit ring locked; an assignment of all lanes; a
loopback timer that is due, and the packets of a loopback. -/
theorem wit_training :
    let dark : OLink := { lnk 1 with trained := false }
    let s0 : State := { so dark with opt := { links := [(0, dark)], engines := [] } }
    let s := so (lnk 1) 600000000000
    let req : Pkt := { pk tyMgmt 0 ([0, 0, 0, 0] ++ List.replicate 8 0 ++ [0x40, 0x0D, 0x03, 0x00]) with aux := 1 }
    s0.domainOn 48 = true ∧ (s0.opt.engines.get {} 0).calDone = false ∧ (∀ j < 6, (s0.link j).cal = 0) ∧ (so dark).rake.valid = false ∧
      (∀ n ∈ [1, 2, 4, 5, 6], ((so { dark with cal := n }).link 0).cal = n) ∧ (dark.lane 0).txState ≠ 0 ∧ dark.settledRings = true ∧
      ({ lnk 1 with lanes := [(0, { rxState := 1, txState := 1 })] } : OLink).settledRings = false ∧
      ((List.range 9).filter fun m => (dark.lane m).txState == 3).length = 9 ∧ (so dark).opt.minK ≤ 9 ∧
      0 + 1000000000 ≤ (so { dark with cal := 2 } 1000000000).now ∧
      ({ lnk 1 with disc := some { since := 0, tx := some (8, 2), rx := some (8, 2) } } : OLink).disc ≠ none ∧ (so dark).up 0 = false ∧
      (∀ i < 9, roleOf 0x249249249249249 i false ≠ 7 ∧ roleOf 0x249249249249249 i true ≠ 7) ∧ s.up 0 = true ∧ s.loopFree 0 = true ∧
      s.opt.spareCal ≠ 0 ∧ (s.link 0).loopLast + 1000000000 * s.opt.spareCal ≤ s.now ∧ (s.link 0).loopAsked = none ∧
      calForm req = true ∧ req.f 1 1 = 0 ∧ req.formOk = true ∧ calForm { req with aux := 2 } = true ∧ calForm { req with len := 15 } = false ∧
      ({ unit := 0x40 } : Who).unit ≠ unitDispatch ∧ 0 + 200000 ≤ s.now ∧
      ((lnk 1).txSpareOk && (lnk 1).rxSpareOk) = true := by decide +kernel

/-- Partition 0 with stream 0 at the last command of a list, a command of the words `ws`, and a counter group; `bs` stands in the next page. -/
def st (ws : List Nat) (bs : List Byte := []) : State :=
  { parts := [(0, { valid := true, log2 := 0, mem := { regions := [(0, g0)] },
                    streams := [(0, { lists := [{ fn := 0, mbox := 0, first := 0x100000000, fin := 0x100000040, start := 0x100000000 }],
                                      started := true, pos := 0x100000000, hasPos := true })] })],
    mcs := [(0, { online := true })],
    mem := { bytes := Tab.setList 0 (Tab.setList 0 [] 0x100000000 (wordBytes ws)) 0x100001000 bs },
    sync := { groups := [(0, { valid := true })], splits := [(0, { first := 0, count := 1 })] } }

/-- The state in which stream 0 has fetched its command. -/
def stAt (s : State) (x : Cmd) : State :=
  let u := (State.nextCmd 0 0 70000 s).2
  if (u.part 0).epoch.toNat < x.tag.toNat then u.modStream 0 0 fun y => y.mark x.tag else u

/-- A stream stands at a command in form. -/
def AtCmd (ws : List Nat) (bs : List Byte := []) : Prop :=
  AtCommand (st ws bs) 0 0 { w := ws } (stAt (st ws bs) { w := ws })

theorem atCmd_of (ws : List Nat) (bs : List Byte) (h1 : (State.nextCmd 0 0 70000 (st ws bs)).1 = .cmd { w := ws })
    (h2 : ({ w := ws } : Cmd).ok (2 ^ ((stAt (st ws bs) { w := ws }).part 0).log2) ((stAt (st ws bs) { w := ws }).part 0).epoch = true ∧
      ({ w := ws } : Cmd).tag.toNat ≤ ((stAt (st ws bs) { w := ws }).part 0).epoch.toNat + 1 ∧
        ((stAt (st ws bs) { w := ws }).part 0).squash ≠ some ({ w := ws } : Cmd).tag) : AtCmd ws bs := by
  obtain ⟨u, hu⟩ : ∃ u, State.nextCmd 0 0 70000 (st ws bs) = (.cmd { w := ws }, u) := ⟨_, Prod.ext h1 rfl⟩
  have e : stAt (st ws bs) { w := ws } =
      if (u.part 0).epoch.toNat < ({ w := ws } : Cmd).tag.toNat then u.modStream 0 0 fun y => y.mark ({ w := ws } : Cmd).tag else u := by
    simp only [stAt, hu]
  exact ⟨by decide, rfl, ⟨rfl, rfl⟩, ⟨u, hu, e⟩, h2.1, h2.2.1, h2.2.2⟩

/-- Every command of Table 12-10, in form, at its stream: NOP, LAUNCH of one bundle on core 0, COLL, WAIT, SIGNAL (of the next tag), COMMIT of
epoch 1, the last phase, the three hints, the last region entry and the first watch slot. -/
theorem at_command : ∀ ws ∈ [[0, 1, 0, 0, 0, 0, 0, 0], [0x10001, 0, 0x100001000, 0, 0, 0, 0, 0], [2, 0, 0x100001000, 0, 0, 0, 0, 0],
      [3, 0, 1, 0, 0, 0, 0, 0], [4, 1, 1, 0, 0, 0, 0, 0], [5, 0, 1, 0, 0, 0, 0, 0], [0xFF0006, 0, 0, 0, 0, 0, 0, 0],
      [0xFF0007, 0, 0, 0, 0, 0, 0, 0], [8, 0, 5, 6, 0, 0, 0, 0], [0x10008, 0, 0, 2500000, 1, 0, 0, 0], [0x220008, 0, 0, 0, 7, 0, 0, 0],
      [0x30008, 0, 0, 0, 0, 0, 0, 0], [0xFF0009, 0, 0x100001000, 0, 0, 0, 0, 0], [10, 0, 0x100001000, 0, 0, 0, 0, 0]], AtCmd ws := by
  intro ws h
  simp only [List.mem_cons, List.not_mem_nil, or_false] at h
  obtain rfl | rfl | rfl | rfl | rfl | rfl | rfl | rfl | rfl | rfl | rfl | rfl | rfl | rfl := h <;>
    exact atCmd_of _ _ (by decide +kernel) (by decide +kernel)

/-- An admitted fetch of 64 bytes at the command's address. -/
theorem fetches_64 (kind : Kind) (k : kind = .read ∨ kind = .fetch) : Fetches (st [3, 0, 1, 0, 0, 0, 0, 0]) 0 kind 0x100000000 64
    (wordBytes [3, 0, 1, 0, 0, 0, 0, 0]) := by
  obtain rfl | rfl := k <;>
    exact ⟨{ part := 0, idx := 0, reg := g0 },
      ⟨by decide, by decide, by decide +kernel, by decide +kernel, by decide +kernel, by decide +kernel, by decide +kernel,
        by decide +kernel, by decide +kernel⟩, by decide, by decide +kernel, by decide +kernel⟩

/-- StreamsFetchAndAdvance: the last command of a list and one that is not the last; a word out of form; a tag two above the epoch. -/
theorem wit_streams :
    let s := st [0, 2, 0, 0, 0, 0, 0, 0]
    (s.stream 0 0).pos + 64 = 0x100000040 ∧ (s.stream 0 0).redo = none ∧ (s.part 0).halted = false ∧
      ({ w := [0, 1, 0, 0, 0, 0, 0, 0] } : Cmd).ok 1 0 = true ∧ ({ w := [0x80, 0, 0, 0, 0, 0, 0, 0] } : Cmd).ok 1 0 = false ∧
      ({ w := [0, 2, 0, 0, 0, 0, 0, 0] } : Cmd).ok 1 0 = true ∧ (s.part 0).epoch.toNat + 1 < 2 := by decide +kernel

/-- StreamCommandsAct: the clauses' further conditions: a free core, a record in form, one out of it, a free slot, a condition that holds and
one that does not, a counter that grants and one that does not, a stream with work of epoch 1 and one with none. -/
theorem wit_stream_commands :
    let t := st [4, 1, 1, 0, 0, 0, 0, 0]
    let who := dispatchWho 0 (some 1)
    let rk : Rake := { valid := true, entries := [(0, { members := 2, op := 0, algo := 0, pos := 1 })] }
    let s : State := { t with rake := rk, cores := [(0, { launches := [{ blk with tag := 1 }] })] }
    (t.stream 0 0).toQueue = none ∧ (t.core 0).launches = [] ∧ (t.core 0).block = none ∧
      (∀ j < 2 ^ (t.part 0).log2, (0x10001 : Nat).testBit (16 + j) = decide ((t.part 0).first + j = 0)) ∧
      (∃ rc, collRecOf (wordBytes [0, 0x99000000000000, 0, 1, 0, 0, 0, 0]) = some rc ∧ s.collOk rc = true) ∧
      collRecOf (wordBytes [0x8000, 0, 0, 0, 0, 0, 0, 0]) = none ∧ (s.rake.active ++ s.rake.queue).length < 16 ∧
      t.sync.freeSlot 0 1 = some 0 ∧ (dispatchWho 0 none).part = some 0 ∧ t.sync.permit (dispatchWho 0 none) .watch 0 = none ∧
      t.sync.holds (mkWatch 4 1 0 0 (.stream 0 0) none (some 0)) = none ∧ t.sync.holds (mkWatch 4 0 0 0 (.stream 0 0) none (some 0)) ≠ none ∧
      t.sync.permit who .add 256 = some Err.counterOwner ∧ (t.sync.group 0).epoch = false ∧ (t.part 0).commit = none ∧
      s.epochWork 0 1 = true ∧ t.epochWork 0 1 = false := by
  dsimp only
  refine ⟨by decide +kernel, by decide +kernel, by decide +kernel, by decide +kernel, ⟨_, rfl, by decide +kernel⟩, by decide +kernel⟩

/-- PhasesHintsAndEntries: a phase open and one not; a list of the physical function and of a virtual one; a region entry and a watch entry. -/
theorem wit_phases :
    let t := st []
    (t.part 0).traceSize = 0 ∧ ({ isOpen := true } : Phase).isOpen = true ∧ ((t.part 0).phases.get {} 255).isOpen = false ∧
      t.virtualList 0 0 = false ∧
      ({ t with parts := [(0, { streams := [(0, { lists := [{ fn := 1, mbox := 0, first := 0, fin := 0, start := 0 }] })] })] } : State).virtualList 0 0 = true ∧
      (∃ v, t.regionPut 0 255 0x10000000000 0x10000000FFF 7 0 = .ok v) ∧ (4 : Word).toNat / 4 % 2 = 1 ∧
      t.sync.owns (dispatchWho 0 none) 0 = true ∧ t.sync.watchBad 0 (4 + 16) 0 = false ∧ t.sync.watches.get none 0 = none := by
  refine ⟨by decide +kernel, by decide +kernel, by decide +kernel, by decide +kernel, by decide +kernel, ⟨_, rfl⟩, by decide +kernel⟩

/-- Mover 0 of core 0 with descriptor 7, complete, which adds `inc` to counter 0, and 1 to one of module 1 where `rc` says so. -/
def dDone (inc : Nat) (rc : Bool) : Active :=
  { dsc with d := { dsc.d with inc := inc, rcEn := rc, rinc := 1, dstRemote := rc, dstId := 1 },
             covered := [{ scale := false, k2 := 0, k1 := 0, k0 := 0, n := 1 }] }
def sD (a : Active) : State :=
  { sMv { tx := [tx1 []] } with cores := [(0, { mv := [(0, { active := [a] })] })], sync := { groups := [(0, { valid := true })] } }

/-- DescriptorsAndSquashesComplete: complete descriptors that add nothing, here, and at another module; a refused addition; a squash with nothing
outstanding and one with a provisional packet under way. -/
theorem wit_descriptors :
    (∀ a ∈ [dDone 0 false, dDone 1 false, dDone 0 true], (sD a).activeOf 0 0 7 = some a ∧ (sD a).descDone 0 0 a = true) ∧
      (let s := sD (dDone 1 false)
       s.sync.permit { unit := 0, part := some 0 } .add 0 = none ∧ s.sync.barrierOf 0 = none ∧ s.partOfCore 0 = some 0 ∧
        (s.moveProv 0 (dDone 1 false)).isSome = false ∧ s.fab.txOf (.uni 1) = some (tx1 []) ∧ s.up 0 = true ∧
        (({ s with sync := {} } : State).sync.permit { unit := 0, part := some 0 } .add 0) = some Err.counterOwner) ∧
      (let s : State := { parts := [(0, { valid := true, squash := some 1, commit := some { stream := 0, epoch := 1 } })] }
       (s.part 0).squash = some 1 ∧ (s.part 0).commit = some { stream := 0, epoch := 1 } ∧ s.sync.watches = [] ∧ s.rake.heldData = []) ∧
      (let s : State := { parts := [(0, { valid := true, squash := some 1 })] }
       s.squashQuiet 0 = true ∧ s.rake.heldData = [] ∧ s.sync.watches = [] ∧
        ({ s with fab := { tx := [tx1 [{ o1 (.mover 0 0 7) with pkt := { (o1 .none).pkt with prov := true } }]] } } : State).squashQuiet 0 =
          false) := by decide +kernel

/-- A collective of entry 0, an all-reduce over two members of which this is the second: one element a shard. -/
def cl : Coll :=
  { part := 0, stream := 0, tag := 0, attempt := 0,
    rc := { coll := 0, inst := 0, counter := 0, inc := 0, src := 0x100000000, srcTy := 9, dstTy := 9, dst := 0x100001000, count := 1,
            deadline := 0, comp := 0x100001040, aux := 0, aux2 := 0 } }
def rk (e : CollEntry) (x : Rake) : Rake := { x with valid := true, entries := [(0, e)] }
def en : CollEntry := { op := 0, algo := 0, wire := 0, members := 2, pos := 1 }
def sCl (e : CollEntry) (x : Rake) : State := { sr with rake := rk e x }

/-- One FP32 element, the second, for the owner of its shard. -/
def cdata (first n : Byte) : Pkt := pk tyCollData 1 ([0, 0, 0, 0, 0, 0, n, 0, first, 0, 0, 0, 0, 0, 0, 0] ++ [0, 0, 0x80, 0x3F])

theorem arrives_coll (x : Rake) : Arrives (sCl en x) (cdata 1 1) { key := .uni 1 } 0 :=
  ⟨by simp [State.mine, cdata, pk, sCl, sr, sf], by simp [cdata, pk, sCl, sr, sf], by decide +kernel, by simp [sCl, sr, sf, Tab.get],
    .inr ⟨rfl, by simp [sCl, sr, sf, Fab.contexts], rfl⟩, .inr ⟨rfl, rfl, rfl⟩, by decide +kernel, by decide +kernel, by simp⟩

theorem admitted_coll : Admitted (sCl en { active := [cl] }) ((sCl en { active := [cl] }).rakeReq cl .write 0x100001000 4 [0, 0, 0, 0])
      { part := 0, idx := 0, reg := g0 } ∧
    Admitted (sCl en { active := [cl] }) ((sCl en { active := [cl] }).rakeReq cl .write 0x100001040 64 (cl.record 0))
      { part := 0, idx := 0, reg := g0 } := by
  constructor <;> exact ⟨by decide, by decide, by decide +kernel, by decide +kernel, by decide +kernel, by decide +kernel,
    by decide +kernel, by decide +kernel, by decide +kernel⟩

/-- CollectivesRun: a launch with a place free; data without a plan, before its collective starts, of an older attempt, of a running one; a tree
past its deadline; a collective whose work is done, and one refused. -/
theorem wit_collectives :
    let s := sCl en { queue := [cl] }
    let a := sCl en { active := [cl] }
    let old : Coll := { cl with tag := 1, attempt := 1 }
    let tree : CollEntry := { op := 0, algo := 2, members := 2, pos := 1, late := 2, treeK := 2 }
    let late : Coll := { cl with rc := { cl.rc with deadline := 1 } }
    (s.rake.queue.find? fun y => y.part == 0) = some cl ∧ s.coll cl.key = none ∧ s.rake.active.length < 16 ∧
      (s.rakeRead cl (s.ownSpan cl).1 (s.ownSpan cl).2).1 = .ok [0, 0, 0, 0, 0, 0, 0, 0] ∧ (sr.rake.valid = false) ∧
      (s.entry (cdata 1 1).collEntry).members ≠ 0 ∧ (s.entry 0).algo ≠ 2 ∧ a.collProv cl = false ∧ (cdata 1 1).collKind = 0 ∧
      (cdata 1 1).collWire = 0 ∧ (cdata 1 1).collN = 1 ∧ (cdata 1 1).payload.length = 20 ∧ (cdata 1 1).collFirst / 1 = en.pos ∧
      ({ cl with own := [0, 0] } : Coll).own[(cdata 1 1).collFirst]? = some 0 ∧ a.collProv old = true ∧ (cdata 1 1).collAttempt < old.attempt % 16 ∧
      (sCl tree { active := [late] }).coll late.key = some late ∧ (tree.trees 1)[0]? = some (0, 0, 1) ∧
      late.reduced.contains 0 = false ∧ late.limit tree 0 < 2 ∧ s.lateReady late tree 0 1 = true ∧ s.readsReady cl [0, 0] = true ∧
      ({ s with rake := { s.rake with active := (List.range 64).map fun n => { cl with rc := { cl.rc with inst := n + 1 } } } } :
        State).rake.active.length = 64 ∧
      (sCl en { active := [{ cl with status := 0x0801 }] }).collReady cl.key { cl with status := 0x0801 } = true ∧ cl.rc.comp % 64 = 0 ∧
      cl.missing = [] ∧ cl.slot = none ∧ cl.ended = false ∧ a.rakeQuiet = true := by decide +kernel

/-- CollectivesRun: the record of a collective meets a region whose epoch has not begun, and waits. -/
theorem wit_record_waits :
    let c : Coll := { cl with tag := 2, status := 0x0801 }
    let s := sCl en { active := [c] }
    s.coll c.key = some c ∧ s.collReady c.key c = true ∧ c.ended = false ∧ c.rc.deadline = 0 ∧
      (s.memReq (s.rakeReq c .write c.rc.comp 64 (c.record s.sync.ft))).1 = .held := by decide +kernel

/-- A running command `op` with its argument words. -/
def bx (op : Nat) (args : List Nat) : Mbox := { state := 1, op := op, args := args.map (BitVec.ofNat 64) }

/-- Mailbox `m` of function `f` holds `x`, at full service, with 48 V. -/
def sb (f m : Nat) (x : Mbox) (s : State := {}) : State :=
  { s with host := { s.host with mboxes := [(64 * f + m, x)] }, rst := { s.rst with stage := 6, restarting := false } }

/-- A command runs in a mailbox, in its turn. -/
theorem inBox (s : State) (f m op : Nat) (args : List Nat) (h : f < 9 ∧ m < 64) : InMailbox (sb f m (bx op args) s) f m op (bx op args) :=
  ⟨h, by simp [sb, State.mbox, Tab.get], rfl, rfl, rfl, by simp [sb, State.inTurn, bx], rfl⟩

/-- One that has begun waits. -/
theorem waitBox (s : State) (f m op : Nat) (args : List Nat) (h : f < 9 ∧ m < 64) :
    Waiting (sb f m { bx op args with begun := true } s) f m op { bx op args with begun := true } :=
  ⟨h, by simp [sb, State.mbox, Tab.get], rfl, rfl, rfl, rfl⟩

/-- A mailbox whose words are `op`, the flags, the vector, LEN and the arguments. -/
def words (op len : Nat) (args : List Nat) : Mbox :=
  { bytes := Tab.setList 0 (Tab.setList 0 [] 4 (leBytes op 2 ++ [0, 0] ++ leBytes 7 2 ++ leBytes len 2)) 0x80 (wordBytes args) }

/-- A function with a session in which every feature is agreed. -/
def fnS : Fn := { session := true, agreed := 0xFFFFFFFFFFFFFFFFFFFF }
def sw (x : Mbox) (fns : Tab Fn) (stage : Nat := 6) : State :=
  { host := { mboxes := [(0, x), (64, x)], fns := fns, vfEnable := true }, rst := { stage := stage } }

/-- MailboxesTakeCommands: a free mailbox and one that runs; each refusal of R305 and R306 in its order, and a command that is taken. -/
theorem wit_arm :
    (sw {} []).fnOn 0 = true ∧ (sw {} []).fnOn 1 = true ∧ ((sw {} []).mbox 0 0).state ≠ 1 ∧ ((sw {} []).mbox 0 0).armed = none ∧
      ((sw (bx 1 []) []).mbox 0 0).state = 1 ∧ 1 ≠ ((sw {} []).mbox 0 0).doneSeq ∧ ((sw {} []).rst.restarting = false) ∧
      (words 0x04 0 []).num 4 2 ∉ mbxOpcodes ∧ (words 0x14 8 [2000]).num 4 2 ∈ mbxOpcodes ∧ ((sw {} []).fn 0).session = false ∧
      (sw {} [] 5).service ≠ 1 ∧ (sw {} []).service = 1 ∧ ((sw {} [(1, fnS)]).fn 1).bound = none ∧
      (0x14 : Nat) ∉ [0x01, 0x02, 0x03, 0x10, 0x22, 0x25, 0x40, 0x41] ∧ ({} : Fn).agreed.getLsbD 0 = false ∧
      (∀ b ∈ (sw {} [(0, fnS)]).needs 0 0x14 false fun _ => 2000, fnS.agreed.getLsbD b = true) ∧
      (words 0x14 16 [2000]).num 0xA 2 ≠ 8 * (argForm 0x14 0).1 ∧ (words 0x14 8 [2000]).num 0xA 2 = 8 ∧ (words 0x14 8 [2000]).num 0x80 8 = 2000 ∧
      (sw {} [(0, fnS)]).mbxRefusal 0 0x14 8 false (fun n => if n = 0 then 2000 else 0) = none ∧ 0xFFF < 4096 ∧ (0x10 ≤ 0x7F ∧ 0x7F < 0x80) := by
  decide +kernel

/-- MailboxServices: a mailbox with and without notifications; a wait just over; a window on and off its size; caps at and beyond their limits. -/
theorem wit_services :
    let r : NoteRec := { tag := 1, time := false, at' := 0, mbox := 0 }
    let s : State := { host := { fns := [(0, { notes := [r] })] } }
    ((s.fn 0).notes.filter fun r => r.mbox == 0) ≠ [] ∧ ((s.fn 1).notes.filter fun r => r.mbox == 0) = [] ∧
      0 + 1000 * bits 5 31 0 ≤ ({ sync := { clock := 5000 } } : State).now ∧ 0x40000000 % 2 ^ (30 + (s.fn 0).bar2Size) = 0 ∧
      0x40000001 % 2 ^ (30 + (s.fn 0).bar2Size) ≠ 0 ∧ (bx 0x14 [2200]).arg 0 = 2200 ∧
      (if 2200 < 700 then 700 else if 2200 < 2200 then 2200 else 2200) = 2200 ∧ (if 699 < 700 then 700 else 699) ≠ 699 := by decide +kernel

/-- HostTablesChange: a region entry that fits and one that does not; a watch slot of a split; a route entry that fits and one of another
module; a leaf inside and outside the mask; lanes of a link that is down and of one that is up. -/
theorem wit_host_tables :
    let x := bx 0x24 [0xFF00, 0x10000000000, 0x10000000FFF, 7, 0]
    let y : Sync := { y0 with splits := [(0, { first := 3583, count := 1 })] }
    regionRsvd (x.arg 1) (x.arg 2) (x.arg 3) (x.arg 4) = false ∧
      (sb 0 0 x (sm g0)).regionOk 0 0xFF (regionOf (x.arg 1) (x.arg 2) (x.arg 3)) = true ∧
      (sb 0 0 x (sm g0)).regionOk 0 0xFF (regionOf 0x10000000800 (x.arg 2) (x.arg 3)) = false ∧
      y.splitOwner 3583 = some 0 ∧ y.watchBad 3583 (4 + 16) 0 = false ∧ (4 + 16 : Word).getLsbD 2 = true ∧ (16 : Word).getLsbD 2 = false ∧
      y.watches.get none 3583 = none ∧ y.permit (dispatchWho 0 none) .watch 0 = none ∧
      y.holds (mkWatch (4 + 16) 1 0 0 (.part 0) none (some 0)) = none ∧ 0x3FFF + 1 ≤ 2 ^ 14 ∧ 0xFFF + 1 ≤ 2 ^ 12 ∧
      (routeOf (1 + 2 ^ 109)).valid = true ∧ (routeOf (1 + 2 ^ 109)).here = false ∧
      (routeOf (2 ^ 108)).here = true ∧ (0 : Nat) ≠ (sf {}).fab.id ∧ (groupEntryOf (2 ^ 40)).leaf.getLsbD 0 = true ∧
      (so { lnk 1 with trained := false }).up 0 = false ∧ (so (lnk 1)).up 0 = true ∧
      (∀ l < 9, ∀ r : Bool, roleOf 0x249249249249249 l r ≠ 7 ∧ ((lnk 1).lane l).txState ≠ 0 ∧ ((lnk 1).lane l).rxState ≠ 0) := by decide +kernel

/-- PartitionsAreConfigured: the whole module as a block, with its domains on and off; a block of another partition; one not on its own
boundary; a partition with a job, with a list, with a snapshot loaded. -/
theorem wit_partition :
    let s : State := { pwr := { on := 0xFFFFFFFF } }
    let two : State := { parts := [(1, { valid := true, first := 16, log2 := 4, job := true })] }
    bits 0xD000 8 4 = 0 ∧ 2 ^ bits 0xD000 14 12 = 32 ∧ bit 0xD000 15 = true ∧ (s.part 0).job = false ∧
      (∀ q < 8, q ≠ 0 → ∀ i < 32, (s.part q).holds (0 + i) = false) ∧ (∀ i < 32, s.domainOn (0 + i) = true) ∧
      ({} : State).domainOn 0 = false ∧ (two.part 1).holds 31 = true ∧ (two.part 1).job = true ∧ 8 % 16 ≠ 0 ∧
      ((st []).part 0).busy = true ∧ (({ parts := [(0, { valid := true })] } : State).part 0).busy = false ∧
      (({ parts := [(0, { snap := { loaded := true } })] } : State).part 0).snap.loaded = true ∧ ({} : Snap).fill = none := by decide +kernel

/-- The header of a plan of one module with one collective of itself, its section table, and the words of that collective. -/
def planHead : List Byte :=
  leBytes 0x534C5031 4 ++ leBytes 1 2 ++ leBytes 0 2 ++ leBytes 1 8 ++ leBytes 1 2 ++ List.replicate 0x3E 0
    ++ ([(1, 36), (2, 16384), (3, 4096), (4, 1), (5, 1), (6, 16384)] : List (Nat × Nat)).flatMap fun e =>
      leBytes e.1 4 ++ leBytes e.2 4 ++ leBytes (if e.1 = 4 then 0x100 else 0x200) 8
def planMem : Mem :=
  { bytes := Tab.setList 0 (Tab.setList 0 [] 0x1000 planHead) 0x1100 (leBytes (0x20000000 * 2 ^ 32 + 0x80000000) 8) }

/-- The image stands in the local store of core 0, every bank of which is opened; partition 0 has an entry for it. -/
def gl : Region := { base := 0, limit := 0x2FFFFF, valid := true, r := true }
def sp : State :=
  { sm gl with mem := planMem, cores := [(0, { extBanks := 0xFFFFFFFFFFFFFFFF })], pwr := { on := 0x3FFFFFFFFFFFFFFF } }

theorem get_above (b : Nat) : ∀ (t : Tab Byte) (k : Nat), (t.all fun e => decide (e.1 < b)) = true → b ≤ k → t.get 0 k = 0
  | [], _, _, _ => rfl
  | (a, x) :: r, k, h, hk => by
    simp only [List.all_cons, Bool.and_eq_true, decide_eq_true_eq] at h
    have : a ≠ k := by omega
    simp only [Tab.get, this, if_false]
    exact get_above b r k h.2 hk

/-- `n` zero bytes, `n` zero numbers. -/
def zb (n : Nat) : List Byte := List.replicate n 0
def zn (n : Nat) : List Nat := List.replicate n 0

theorem getList_above (b : Nat) (t : Tab Byte) (h : (t.all fun e => decide (e.1 < b)) = true) :
    ∀ (n k : Nat), b ≤ k → t.getList 0 k n = zb n
  | 0, _, _ => rfl
  | n + 1, k, hk => by
    simp only [Tab.getList, get_above b t k h hk, getList_above b t h n (k + 1) (by omega), zb, List.replicate_succ]

theorem leNat_zeros (n : Nat) : leNat (List.replicate n (0#8)) = 0 := by
  induction n with
  | zero => rfl
  | succ n ih =>
    simp only [leNat, List.replicate_succ, List.foldr_cons] at *
    rw [ih]
    rfl

theorem chop_zeros (n m : Nat) (h : 0 < n) : chop n (zb (m * n)) = zn m := by
  unfold zb zn
  refine List.ext_getElem (by simp [chop, Nat.mul_div_cancel _ h]) fun i h1 h2 => ?_
  simp [chop, wordAt, leNat_zeros]

/-- The dispatch processor's read of a part of the image. -/
def planReq (a n : Nat) : Req := { unit := unitDispatch, part := none, addr := a, len := n }

/-- What the read meets, as a check: entry, domain, banks, protection, and targets without byte counters. -/
def planSees (a n : Nat) : Bool :=
  decide (zoneOf a n = .ls 0) && decide (zoneAt a = .ls 0) && (pieces 4096 a n).all (fun e => decide (16 ≤ targetOf e.1)) &&
    decide (sp.hit (sp.judges (planReq a n)) a n = some { part := 0, idx := 0, reg := gl }) && decide (sp.bankRefusal (planReq a n) = none) &&
    !sp.mem.poisoned a n

theorem countBytes_none (a n : Nat) (h : (pieces 4096 a n).all (fun e => decide (16 ≤ targetOf e.1)) = true) (w : Bool) (s : State) :
    s.countBytes a n w = s := by
  unfold State.countBytes
  generalize pieces 4096 a n = l at h
  induction l with
  | nil => rfl
  | cons e l ih =>
    simp only [List.all_cons, Bool.and_eq_true, decide_eq_true_eq] at h
    simp only [List.foldl_cons, h.1, if_true]
    exact ih h.2

theorem plan_memReq (a n : Nat) (h : planSees a n = true) : sp.memReq (planReq a n) = (.ok (planMem.bytes.getList 0 a n), sp) := by
  simp only [planSees, Bool.and_eq_true, decide_eq_true_eq, Bool.not_eq_true'] at h
  obtain ⟨⟨⟨⟨⟨hz, ha⟩, hc⟩, hh⟩, hb⟩, hp⟩ := h
  have hon : sp.tierOn a n = true := by simp only [State.tierOn, ha]; decide +kernel
  have hpart : (sp.part 0).epoch = 0 ∧ (sp.part 0).commit = none := by decide +kernel
  have hk : sp.adderAt a = 16 := by
    have hc : sp.mem.cache = [] := rfl
    simp [State.adderAt, hc, Tab.get, targetOf, ha]
  have hph : gl.phys a = (a, false) := rfl
  have hpass : (sp.part 0).passHolds a n = false := by simp only [Part.passHolds, hpart.2]
  have e : sp.judge (planReq a n) { part := 0, idx := 0, reg := gl } none = (.ok (planMem.bytes.getList 0 a n), sp) := by
    simp [State.judge, hpart.1, planReq, hph, hon, hpass, State.accept, State.protect, hk, State.countEcc, State.perform]
    simp only [planReq] at hb
    simp [hb, hp, countBytes_none _ _ hc]
    rfl
  have hh' : sp.hit (sp.judges (planReq a n)) (planReq a n).addr (planReq a n).len = some { part := 0, idx := 0, reg := gl } := hh
  have hz' : zoneOf (planReq a n).addr (planReq a n).len = .ls 0 := hz
  simp only [State.memReq, hz', hh', e]
  simp [planReq, Req.cls]

theorem planFold : ∀ (l : List (Nat × Nat)) (bs : List Byte), (l.all fun e => planSees e.1 e.2 && decide (0x1200 ≤ e.1)) = true →
    l.foldl (fun acc e =>
      match acc.1 with
      | .error _ => acc
      | .ok bs =>
        let r := acc.2.memReq (planReq e.1 e.2)
        match r.1 with
        | .ok cs => (.ok (bs ++ cs), r.2)
        | .refused c => (.error (ImageErr.memory c), r.2)
        | _ => (.error .held, sp)) ((.ok bs, sp) : Except ImageErr (List Byte) × State) = (.ok (bs ++ zb ((l.map (·.2)).sum)), sp)
  | [], bs, _ => by simp [zb]
  | e :: l, bs, h => by
    simp only [List.all_cons, Bool.and_eq_true, decide_eq_true_eq] at h
    have hz : (planMem.bytes.all fun e => decide (e.1 < 0x1200)) = true := by decide +kernel
    simp only [List.foldl_cons, plan_memReq e.1 e.2 h.1.1, getList_above _ _ hz e.2 e.1 h.1.2]
    rw [planFold l _ (by simpa using h.2)]
    simp [zb, List.append_assoc]

theorem plan_imageRead : ∀ n ∈ [36 * 8, 16384 * 16, 4096 * 16, 1 * 2, 16384 * 8], sp.imageRead none 0x1200 n = (.ok (zb n), sp) := by
  intro n h
  have hs : ∀ n ∈ [36 * 8, 16384 * 16, 4096 * 16, 1 * 2, 16384 * 8],
      ((pieces 4096 0x1200 n).all fun e => planSees e.1 e.2 && decide (0x1200 ≤ e.1)) = true ∧ ((pieces 4096 0x1200 n).map (·.2)).sum = n := by
    decide +kernel
  have := planFold _ [] (hs n h).1
  rw [(hs n h).2] at this
  exact this

/-- The plan that the image spells. -/
def planOne : Plan :=
  { head := planMem.peek 0x1000 0x100, links := zn 36, routes := zn 16384,
    groups := zn 4096, colls := [[0x2000000080000000, 0, 0, 0, 0, 0, 0, 0]], members := zn 1, coords := zn 16384 }

theorem planSection_zeros (ty n : Nat) (m : (ty, n) ∈ [(1, 36), (2, 16384), (3, 4096), (5, 1), (6, 16384)])
    (q : n * sectionSize ty ∈ [36 * 8, 16384 * 16, 4096 * 16, 1 * 2, 16384 * 8]) :
    sp.planSection 0x1000 (planMem.peek 0x1000 0x100) ty = (.ok (zb (n * sectionSize ty)), sp) := by
  have hs : ∀ e ∈ [(1, 36), (2, 16384), (3, 4096), (5, 1), (6, 16384)],
      (planSections (planMem.peek 0x1000 0x100)).find? (fun x => x.ty == e.1) =
        some { ty := e.1, count := e.2, off := 0x200, clean := true } := by decide +kernel
  have := hs (ty, n) m
  simp only at this
  simp only [State.planSection, this]
  exact plan_imageRead _ q

/-- The bytes of the collective. -/
def planColl : List Byte := wordBytes [0x2000000080000000, 0, 0, 0, 0, 0, 0, 0]

theorem planColl_chop : (List.range (planColl.length / 64)).map (fun i => chop 8 ((planColl.drop (64 * i)).take 64)) =
    [[0x2000000080000000, 0, 0, 0, 0, 0, 0, 0]] := by decide +kernel

theorem planOne_ok : planOne.ok = true := by decide +kernel

theorem plan_small (a n : Nat) (p : pieces 4096 a n = [(a, n)]) (h : planSees a n = true) :
    sp.imageRead none a n = (.ok (planMem.bytes.getList 0 a n), sp) := by
  have e := plan_memReq a n h
  simp only [planReq] at e
  simp only [State.imageRead, p, List.foldl_cons, List.foldl_nil, e, List.nil_append]

theorem plan_head : sp.imageRead none 0x1000 0x100 = (.ok (planMem.peek 0x1000 0x100), sp) := by
  have e : planMem.bytes.getList 0 0x1000 0x100 = planMem.peek 0x1000 0x100 := by decide +kernel
  rw [← e]
  exact plan_small _ _ (by decide +kernel) (by decide +kernel)

theorem plan_coll : sp.planSection 0x1000 (planMem.peek 0x1000 0x100) 4 = (.ok planColl, sp) := by
  have hs : (planSections (planMem.peek 0x1000 0x100)).find? (fun x => x.ty == 4) = some { ty := 4, count := 1, off := 0x100, clean := true } := by
    decide +kernel
  have e : planMem.bytes.getList 0 0x1100 64 = planColl := by decide +kernel
  simp only [State.planSection, hs, ← e]
  exact plan_small _ _ (by decide +kernel) (by decide +kernel)

theorem plan_read : sp.planRead 0x1000 = (.ok planOne, sp) := by
  have hk : planHeadOk 0x1000 (planMem.peek 0x1000 0x100) = true := by decide +kernel
  simp only [State.planRead, thenImage, plan_head, hk, Bool.not_true, if_false, Bool.false_eq_true,
    planSection_zeros 1 36 (by simp) (by simp [sectionSize]), planSection_zeros 2 16384 (by simp) (by simp [sectionSize]),
    planSection_zeros 3 4096 (by simp) (by simp [sectionSize]), plan_coll, planSection_zeros 5 1 (by simp) (by simp [sectionSize]),
    planSection_zeros 6 16384 (by simp) (by simp [sectionSize]), planColl_chop]
  have e1 : sectionSize 1 = 8 := rfl
  have e2 : sectionSize 2 = 16 := rfl
  have e3 : sectionSize 3 = 16 := rfl
  have e5 : sectionSize 5 = 2 := rfl
  have e6 : sectionSize 6 = 8 := rfl
  rw [e1, e2, e3, e5, e6, chop_zeros 8 36 (by decide), chop_zeros 16 16384 (by decide), chop_zeros 16 4096 (by decide),
    chop_zeros 2 1 (by decide), chop_zeros 8 16384 (by decide)]
  have : ({ head := planMem.peek 0x1000 0x100, links := zn 36, routes := zn 16384, groups := zn 4096,
            colls := [[0x2000000080000000, 0, 0, 0, 0, 0, 0, 0]], members := zn 1, coords := zn 16384 } : Plan) = planOne := rfl
  rw [this, planOne_ok]
  rfl

theorem putRoutes_zeros : ∀ (l : List (Nat × BitVec 128)) (s : State), (∀ e ∈ l, e.2 = 0) → (State.putEntries State.routePut routeOff l s).1 = none
  | [], _, _ => rfl
  | e :: l, s, h => by
    have h0 : e.2 = 0 := h e (by simp)
    have : ∃ t, State.routePut s e.1 0 = .ok t := ⟨_, rfl⟩
    obtain ⟨t, ht⟩ := this
    simp only [State.putEntries, h0, ht]
    exact putRoutes_zeros l t fun e he => h e (by simp [he])

theorem putGroups_zeros : ∀ (l : List (Nat × BitVec 128)) (s : State), (∀ e ∈ l, e.2 = 0) → (State.putEntries State.groupPut groupOff l s).1 = none
  | [], _, _ => rfl
  | e :: l, s, h => by
    have h0 : e.2 = 0 := h e (by simp)
    have : ∃ t, State.groupPut s e.1 0 = .ok t := ⟨_, rfl⟩
    obtain ⟨t, ht⟩ := this
    simp only [State.putEntries, h0, ht]
    exact putGroups_zeros l t fun e he => h e (by simp [he])

theorem planPut_zeros (s : State) (x : Plan) (hr : ∀ n : Nat, (x.routes[n]?).getD 0 = 0) (hg : ∀ n : Nat, (x.groups[n]?).getD 0 = 0) :
    (s.planPut x).1 = none := by
  have z : ∀ l : List Nat, (∀ n : Nat, (l[n]?).getD 0 = 0) →
      ∀ e ∈ (List.range l.length).map (fun i => (i, BitVec.ofNat 128 ((l[i]?).getD 0))), e.2 = (0 : BitVec 128) := by
    intro l h e he
    simp only [List.mem_map] at he
    obtain ⟨i, _, rfl⟩ := he
    simp [h i]
  unfold State.planPut
  simp only [putRoutes_zeros _ _ (z _ hr), putGroups_zeros _ _ (z _ hg)]

theorem zn_get (k n : Nat) : ((zn k)[n]?).getD 0 = 0 := by
  unfold zn
  by_cases h : n < k <;> simp [h]

theorem plan_put : (sp.planPut planOne).1 = none := planPut_zeros _ _ (zn_get _) (zn_get _)

/-- Partition 0 with the job image `bs` in the pan, and partition 1 that owns counter group 1. -/
def sj (bs : List Byte) : State :=
  { sm g0 with mem := { bytes := Tab.setList 0 [] 0x100000000 bs }, sync := { groups := [(1, { valid := true, part := 1 })] },
               pwr := { on := 0x3FFFFFFFFFFFFFFF } }

/-- A job of counter group `g` alone. -/
def jobImage (g : Byte) : List Byte := leBytes 0x4A4F4231 4 ++ [0, 0, 1, 0] ++ List.replicate 248 0 ++ [1, 0, 0, 0, g, 0, 0, 0]

/-- JobsPlansAndLists: an image out of form, one of a group that another partition owns, one that loads; its domains on and off; a busy
partition; a plan out of form, one of features that are not offered, one that loads; streams with no list, with eight, with a place. -/
theorem wit_jobs :
    ((sj []).imageRead (some 0) 0x100000000 0x100).1 = .ok (zb 256) ∧ jobHeadOk (zb 256) = false ∧ (sj []).jobBusy 0 = false ∧
      (match (sj (jobImage 1)).jobRead 0 0x100000000 with | (.ok j, r) => r.jobGroupsOk 0 j | _ => true) = false ∧
      (match (sj (jobImage 0)).jobRead 0 0x100000000 with
        | (.ok j, r) => (r.jobPut 0 1 2 j).isOk && (j.domains ((sj (jobImage 0)).part 0).cores).all fun d => r.domainOn d
        | _ => false) = true ∧
      ((sj []).jobRead 0 0x1C0000000).1 = .error (.memory Err.noRegion) ∧ ((sj []).planRead 0x1C0000000).1 = .error (.memory Err.noRegion) ∧
      ({ sj (jobImage 0) with pwr := {} } : State).domainOn 56 = false ∧ (sj (jobImage 0)).sync.watches = [] ∧
      ({ st [] with parts := [(0, { (st []).part 0 with job := true })] } : State).jobBusy 0 = true ∧
      ((sj []).planRead 0x100000000).1 = .error (.form Err.planForm) ∧ (1 : BitVec 256) &&& ~~~(0 : BitVec 256) ≠ 0 ∧ sp.planBusy = false ∧
      (st []).planBusy = true ∧ planOne.features &&& ~~~sp.host.offered = 0 ∧ (planOne.domains.all fun d => sp.domainOn d) = true ∧
      ((st []).stream 0 0).submitted.length = 1 ∧ ((st []).stream 0 0).started = true ∧
      ({ lists := [{ fn := 0, mbox := 0, first := 0, fin := 64, start := 0, again := true }], started := true } : Stream).submitted = [] ∧
      bit 0x4000 14 = true ∧ (st []).stream 0 63 = {} ∧ ((st []).stream 0 0).lists.length < 8 ∧
      ({ hasPos := true, pos := 64 } : Stream).pos < 128 := by decide +kernel

/-- Partition 0 with a paired region of one page in each half, which snapshots hold, three local slots in the same tier, and the plan that
agreement needs. -/
def gp : Region := { base := 0x20000000000, limit := 0x20000001FFF, valid := true, r := true, w := true, paired := true, guard := 1 }
def gs : Region := { base := 0x20000100000, limit := 0x200005FFFFF, valid := true, r := true, w := true, guard := 1 }
def sn0 : Snap :=
  { locBase := 0x20000200000, slotSize := 0x101000, holdM := 1, holdD := 2, regions := [(0, { snap := true })], agreeColl := 0 }
def ssn (x : Snap) (bytes : Tab Byte := []) : State :=
  { parts := [(0, { valid := true, mem := { regions := [(0, gp), (1, gs)] }, snap := x })],
    mcs := [(14, { online := true, encReady := true }), (15, { online := true, encReady := true })], mem := { bytes := bytes },
    rake := { valid := true, entries := [(0, { op := 7, members := 1 })] } }

/-- A request was performed. -/
def okRes (r : MemRes) : Bool := match r with
  | .ok _ => true
  | _ => false

/-- SnapshotCommands: a configuration that may stand, with slots of exactly the size needed, and one a page too small; an anchor beyond the
committed epoch and at it; an epoch that no slot holds; a fill's slot emptied; a serve of what no area holds, and one that is done. -/
theorem wit_snapshots :
    let s := ssn sn0
    let w (n : Nat) : Nat := if n = 4 then 0x20000200000 else if n = 5 then 0x101000 else if n = 6 then 1 else if n = 7 then 2 else if n = 8 then 1 else 0
    s.snapOk 0 ((s.part 0).snap.configured w) = true ∧
      s.snapOk 0 { sn0 with slotSize := 0x100000 } = false ∧ (s.part 0).epoch.toNat < 1 ∧ 0 ≤ (s.part 0).epoch.toNat ∧
      (let u := s.restoreBegin 0 5
       (∀ i < 3, ((u.part 0).snap.slots.get {} i).state ≠ 3) ∧ okRes (u.drainPut 0 ((u.part 0).snap.slotAt (u.part 0).snap.freeSlot) (zb 0x1040)).1 = true) ∧
      s.serveSends 0 0 5 0 0 0 1 false = none ∧ (s.part 0).snap.fill = none ∧ s.outstanding (.serve 0 5) = 0 ∧
      ({ fill := some { epoch := 1, sources := 1, counter := 0, slot := 0, fn := 0, mbox := 0 } } : Snap).fill ≠ none ∧
      ((ssn { serves := [{ client := 5, fn := 0, mbox := 0, sends := [] }] }).part 0).snap.serves.length = 1 := by decide +kernel

/-- The record of epoch 1, in slot 0 with a directory whose words show the epoch. -/
def rec1 : SchedRec := { epoch := 1, planId := 0, selfId := 0, streams := [], draws := [], phases := [], groups := [] }

/-- DrainsAgreeAndFill: the one page of a drain; a drain with everything captured, and with everything performed; an agreement on +0 and another
value; a fill whose sources have counted, with its slot whole and not. -/
theorem wit_drains :
    let dr : Drain := { epoch := 1, slot := 0, base := true }
    let s := ssn { sn0 with drain := some dr, records := [rec1] }
    let got := s.drainGet 0 (gp.base + gp.half + 4096 * 0) 4096
    s.nextPage 0 = some (0, 0) ∧ (s.part 0).snapList = [(0, gp, 0x100000)] ∧ okRes got.1 = true ∧
      (match got with
        | (.ok bs, t1) => let r := t1.drainPut 0 ((s.part 0).snap.slotAt 0 + 0x100000) bs
          okRes r.1 && r.2.mem.held.isEmpty && decide ((r.2.part 0).snap = (s.part 0).snap)
        | _ => false) = true ∧
      (let u := ssn { sn0 with drain := some { dr with pages := [(0, 0)] }, records := [rec1] }
       (u.part 0).uncaptured = [] ∧ okRes (u.closeSlot 0 { dr with pages := [(0, 0)] }).1 = true ∧
        (u.closeSlot 0 { dr with pages := [(0, 0)] }).2.1.mem.held = [] ∧
        ((u.closeSlot 0 { dr with pages := [(0, 0)] }).2.1.part 0).snap.drain = some { dr with pages := [(0, 0)] }) ∧
      s.outstanding (.drain 0) = 0 ∧ ({ epoch := 1, good := true, slot := some 2, base := true } : Agree).good = true ∧
      (let f := ssn { sn0 with fill := some { epoch := 1, sources := 0, counter := 0, slot := 0, fn := 0, mbox := 0 } }
       0 ≤ (f.sync.val false 0).toNat ∧ f.slotWhole 0 0 1 = false) := by decide +kernel

/-- A slot of epoch 1 with its record and its one region present, for a fill to load. -/
def closed : State :=
  ssn { sn0 with fill := some { epoch := 1, sources := 0, counter := 0, slot := 0, fn := 0, mbox := 0 } }
    (Tab.setList 0 (Tab.setList 0 [] 0x20000200000 [0, 0, 0x10, 0, 0, 1, 0, 0, 1]) 0x20000201000
      (leBytes 0x534E5231 4 ++ List.replicate 12 0 ++ [1]))

/-- DrainsAgreeAndFill: its slot is whole; SnapshotCommands: an area held for module 5 with a job-complete slot of epoch 1. -/
theorem wit_whole : closed.slotWhole 0 0 1 = true := by decide +kernel
theorem wit_serve :
    let a := ssn sn0 (Tab.setList 0 (Tab.setList 0 [] 0x20000100000 (leBytes 0x534E4131 4 ++ [0, 0, 0, 0, 5])) 0x20000100020 [1, 0, 0, 0, 0, 0, 0, 0, 3])
    (a.serveSends 0 0 5 0 0 0 1 false).isSome = true := by decide +kernel
set_option maxRecDepth 200000 in
theorem wit_load : (closed.loadSlot 0 0).1 = none := by decide +kernel

/-- HostReachesTheModule: the last byte of a page that the window shows, and one beyond; a virtual function of no partition; a transfer that
moves all its bytes; a register of the dispatch processor and one that it may not write; a mailbox free and running; no job. -/
theorem wit_host :
    let s : State := { sm g0 with host := { vfEnable := true, fns := [(0, { bar2Base := 0x100000000 }), (1, { bar2Base := 0x100000000 })] }, rst := { stage := 6 } }
    let dma := (State.dmaIn 0 (pieces 4096 0x100000000 4) [1, 2, 3, 4] s)
    s.fnOn 0 = true ∧ s.fnOn 1 = true ∧ 0xFFF + 1 ≤ 2 ^ (30 + (s.fn 0).bar2Size) ∧ (0x100000000 + 0xFFF) % 4096 + 1 ≤ 4096 ∧
      4096 < (0x100000000 + 0xFFF) % 4096 + 2 ∧ (s.fn 1).bound = none ∧
      (match dma.1 with | .moved l => l.isEmpty | _ => false) = true ∧ bit 0 0 = false ∧ bit 1 0 = true ∧ bit 2 1 = true ∧
      (({ s with sync := { groups := [(0, { valid := true, host := true })] } } : State).dmaCount 0 0).1 = none ∧
      0x1100008 % regSize 0x1100008 = 0 ∧ regSize 0x1100008 = 4 ∧ s.cfgMay { unit := unitDispatch } 0x1100008 = true ∧
      s.cfgMay { unit := 0x40 } 0x1100008 = false ∧ bit 1 0 = true ∧ (s.mbox 0 0).state ≠ 1 ∧ (s.mbox 0 0).armed = none ∧ s.hostUp = true ∧
      s.jobs = [] ∧ s.rst.stretch = none ∧ 0x80 + 4 ≤ 4096 := by decide +kernel

theorem admitted_host (k : Kind) (h : k = .read ∨ k = .write) : Admitted (sm g0) (hostReq 0 k 0x100000000 4 [1, 2, 3, 4]) { part := 0, idx := 0, reg := g0 } := by
  obtain rfl | rfl := h <;> exact ⟨by decide, by decide, by decide +kernel, by decide +kernel, by decide +kernel, by decide +kernel,
    by decide +kernel, by decide +kernel, by decide +kernel⟩

/-- PowerIsControlled: a domain idle and one at work; thresholds at the ends of their ranges; a sample within and beyond the input's limits. -/
theorem wit_power :
    let host : Who := { unit := unitHost }
    let s : State := { pwr := { on := 1, power := 1900 } }
    host.isHost = true ∧ ({ unit := 0x40 } : Who).isHost = false ∧ (∀ i < 57, s.pwr.req.getLsbD i = true → (-1 : Word).getLsbD i = true) ∧
      s.domainIdle 0 = true ∧ s.pwr.req.getLsbD 0 = true ∧
      ({ parts := [(0, { valid := true, job := true })], pwr := { on := 1 } } : State).domainIdle 0 = false ∧
      ({ rst := { stage := 6 }, pwr := { on := 0 } } : State).domainReady 0 = true ∧ (85 ≤ 110 ∧ 112 + 3 ≤ 115) ∧
      overInput 2000 4800 = false ∧ overInput 65535 4800 = true := by decide +kernel

/-- The same: the ladder's three ways; the windows; hints with and without what was learned; the two temperatures and their returns. -/
theorem wit_ladder :
    let s : State := { pwr := { on := 1, power := 1900 } }
    let at' (t : Nat) (x : Pwr) : State := { sync := { ft := BitVec.ofNat 64 t, clock := 1000000000 }, pwr := x }
    (at' 1000000 {}).sync.ft.toNat % 1000000 = 0 ∧ sumOf ([(0, 5)].map (·.2)) ≤ 5 ∧ ({ cap := 2000, power := 2001 } : Pwr).cap < 2001 ∧
      100 * 1900 ≤ 95 * s.pwr.cap ∧ 95 * s.pwr.cap < 100 * 1901 ∧ s.pwr.hints = [] ∧ ({ level := 14 } : Pwr).duty < 8 ∧
      1250 % 10000 = 1250 * ({ level := 14 } : Pwr).duty ∧ ({ hints := [(0, 3, 60000, 1, none)] } : Pwr).hints = [(0, 3, 60000, 1, none)] ∧
      60000 ≤ 0 + 60000 ∧ ({} : Pwr).learned.get 0 3 = 0 ∧ ({ learned := [(3, 900)] } : Pwr).learned.get 0 3 ≠ 0 ∧
      (List.replicate 72 (1600 : Int)).length = 72 ∧ ((16 * s.pwr.tWarn : Nat) : Int) ≤ (hottest (List.replicate 72 1600)).1 ∧
      (hottest (List.replicate 72 1600)).1 < ((16 * s.pwr.tThrottle : Nat) : Int) ∧
      ((16 * s.pwr.tThrottle : Nat) : Int) ≤ (hottest (List.replicate 72 1728)).1 ∧
      (hottest (List.replicate 72 1552)).1 ≤ ((16 * s.pwr.tWarn : Nat) : Int) - 48 ∧
      ((16 * s.pwr.tWarn : Nat) : Int) - 48 < (hottest (List.replicate 72 1553)).1 ∧
      ({ warn := true, warnCool := some 0 } : Pwr).warnCool = some 0 ∧ ({ throttle := true } : Pwr).throttleCool = none := by decide +kernel

theorem leNat_leBytes (n : Nat) : ∀ v, leNat (leBytes v n) = v % 2 ^ (8 * n) := by
  induction n with
  | zero => intro v; simp [leBytes, leNat, Nat.mod_one]
  | succ n ih =>
    intro v
    have h : leBytes v (n + 1) = BitVec.ofNat 8 v :: leBytes (v / 256) n := by
      unfold leBytes
      rw [List.range_succ_eq_map]
      simp only [List.map_cons, List.map_map, Nat.mul_zero, Nat.pow_zero, Nat.div_one]
      congr 1
      refine List.map_congr_left fun i _ => ?_
      simp only [Function.comp]
      rw [Nat.div_div_eq_div_mul, show (256 : Nat) = 2 ^ 8 from rfl, ← Nat.pow_add, show 8 * i.succ = 8 + 8 * i by omega]
    rw [h]
    have := ih (v / 256)
    simp only [leNat, List.foldr_cons, BitVec.toNat_ofNat] at *
    rw [this, show 8 * (n + 1) = 8 + 8 * n by omega, Nat.pow_add, show (2 : Nat) ^ 8 = 256 from rfl, Nat.mod_mul]

/-- The first half of a REMOTE_RESET of this module: OP and a nonce of 1 ms. -/
def rrHead (op : Byte) : List Byte := op :: List.replicate 7 0 ++ leBytes 1000000 8 ++ leBytes 5 2 ++ List.replicate 14 0

/-- The packet, with the tag that key 0 gives it. -/
def rr (op : Byte) : Pkt := { pk tyMgmt 0 (rrHead op ++ leBytes (Config.kmac 0 (rrHead op)).toNat 32) with aux := 0x10 }

theorem rr_len (op : Byte) : (rr op).payload.length = 64 := by simp [rr, pk, rrHead, leBytes]

theorem rr_f (op : Byte) (a n : Nat) (h : a + n ≤ 32) : (rr op).f a n = leNat (((rrHead op).drop a).take n) := by
  have : (rrHead op).length = 32 := by simp [rrHead, leBytes]
  simp only [rr, pk, Pkt.f]
  rw [List.drop_append_of_le_length (by omega), List.take_append_of_le_length (by simp; omega)]

/-- The module 5 with the management key 0. -/
def srr : State := { sf {} with mgmt := { mgmtKey := some 0 } }

/-- ResetsTakeEffect: a remote reset in form and authorised; with no key it is not. -/
theorem wit_remote (op : Byte) (h : op = 0 ∨ op = 1) : resetForm (rr op) = true ∧ srr.resetAuth (rr op) = true ∧
    (sf {}).resetAuth (rr op) = false ∧ (rr op).f 0 1 = op.toNat := by
  have hp : (rr op).len = 64 := rr_len op
  have hc : (rr op).cls = 0 := rfl
  have f0 := rr_f op 0 1 (by omega)
  have f1 := rr_f op 1 7 (by omega)
  have f8 := rr_f op 8 8 (by omega)
  have f16 := rr_f op 16 2 (by omega)
  have f18 := rr_f op 18 14 (by omega)
  have t : BitVec.ofNat 256 ((rr op).f 32 32) = Config.kmac 0 (rrHead op) := by
    have l : (rrHead op).length = 32 := by simp [rrHead, leBytes]
    have : ((rr op).payload.drop 32).take 32 = leBytes (Config.kmac 0 (rrHead op)).toNat 32 := by
      simp only [rr, pk]
      rw [List.drop_append_of_le_length (by omega), List.drop_of_length_le (by omega), List.nil_append]
      exact List.take_of_length_le (by simp [leBytes])
    rw [Pkt.f, this, leNat_leBytes]
    apply BitVec.eq_of_toNat_eq
    simp only [BitVec.toNat_ofNat]
    have := (Config.kmac 0 (rrHead op)).isLt
    omega
  have hd : (rr op).payload.take 32 = rrHead op := by
    have l : (rrHead op).length = 32 := by simp [rrHead, leBytes]
    simp only [rr, pk]
    rw [List.take_append_of_le_length (by omega), List.take_of_length_le (by omega)]
  have e1 : leNat (((rrHead op).drop 0).take 1) = op.toNat := by obtain rfl | rfl := h <;> decide
  have e2 : leNat (((rrHead op).drop 1).take 7) = 0 := by obtain rfl | rfl := h <;> decide
  have e3 : leNat (((rrHead op).drop 8).take 8) = 1000000 := by obtain rfl | rfl := h <;> decide
  have e4 : leNat (((rrHead op).drop 16).take 2) = 5 := by obtain rfl | rfl := h <;> decide
  have e5 : leNat (((rrHead op).drop 18).take 14) = 0 := by obtain rfl | rfl := h <;> decide
  have lt : op.toNat < 2 := by obtain rfl | rfl := h <;> decide
  have k0 : BitVec.ofNat 256 0 = (0 : BitVec 256) := rfl
  refine ⟨?_, ?_, rfl, by rw [f0, e1]⟩
  · rw [e1] at f0; rw [e2] at f1; rw [e4] at f16; rw [e5] at f18
    have lt1 : op.toNat ≤ 1 := by omega
    simp [resetForm, hp, rr_len, hc, f0, f1, f16, f18, lt1]
  · simp [State.resetAuth, srr, f16, f8, e3, e4, hd, t, sf]

/-- The same: a calm module; blocks idle, at work and unknown; a dispatch processor to restart; a quench whose causes went 1 s ago; a supply
off; a reset in its stretch for 1 ms. -/
theorem wit_resets :
    let s : State := { rst := { stage := 6 } }
    let j : State := { parts := [(0, { valid := true, log2 := 5, job := true })] }
    let q : Stretch := { kind := 1, at' := 0 }
    s.rst.stage = 6 ∧ s.rst.stretch = none ∧ s.mem.held = [] ∧ s.running = true ∧ bits 0x1F02 15 8 = 0x1F ∧ s.blockIdle 0x1F = some true ∧
      s.blockIdle 0x2E = some true ∧ s.blockIdle 0x2F = none ∧ j.blockIdle 0x1F = some false ∧ bits (0x1F02 : Word).toNat 7 2 = 0 ∧
      (0xFFFF : Word).toNat < 2 ^ 16 ∧ s.blockDone 0 = true ∧ ({ s with rst := { s.rst with restarting := true } } : State).running = true ∧
      (({ mgmt := { fw := some {} } } : State).mgmt.fw.map (·.digest)) = some 0 ∧ (∀ e ∈ s.host.mboxes, e.2.armed = none) ∧
      ({ quenched := true, stretch := some q } : Rst).since + 1000000000 ≤ ({ sync := { clock := 1000000000 } } : State).now ∧
      ({ supply := false } : Rst).supply = false ∧ q.at' + 1000000 ≤ ({ sync := { clock := 1000000 } } : State).now ∧ q.kind ≠ 2 := by
  decide +kernel

/-- An image whose header is in form, `n` bytes after it. -/
def imgHead (size : Nat) : List Byte :=
  leBytes 0x45514657 4 ++ leBytes 1 2 ++ leBytes 0x9600 2 ++ [0xB0, 1, 0, 0, 5, 3, 0, 0] ++ leBytes 7 8 ++ leBytes size 4 ++ leBytes 0x3000 4
def img (size n : Nat) : List Byte := imgHead size ++ List.replicate n 0

/-- StartUpRuns: an image of the wrong size, one out of form, one of another device, one of an unknown key. -/
theorem wit_images : ({} : Mgmt).fwCheck [] = some Err.fwSize ∧
    ({} : Mgmt).fwCheck (List.replicate 0x18 0 ++ leBytes 0x4000 4 ++ List.replicate 0x3FE4 0) = some Err.fwFormat ∧
    ({} : Mgmt).fwCheck (img 0x4213 (0x4213 - 32)) = some Err.fwKey ∧
    ({} : Mgmt).fwCheck ((img 0x4213 (0x4213 - 32)).set 6 1) = some Err.fwDevice := by decide +kernel

/-- The same: the key of an image under the fuse root, where signatures verify: an older one, and one that starts. Whether a signature verifies
is open in this model. -/
theorem wit_image_signed (h : ∀ a b c, Config.mldsaOk a b c = true) :
    let root := Config.sha3 (slice (img 0x4213 (0x4213 - 32)) 0x100 pubSize)
    ({ rootSet := true, rootHash := root, fuseFw := 6 } : Mgmt).fwCheck (img 0x4213 (0x4213 - 32)) = some Err.fwRollback ∧
      ({ rootSet := true, rootHash := root, fuseFw := 5, fuseKey := 3 } : Mgmt).fwCheck (img 0x4213 (0x4213 - 32)) = none := by
  have a1 : wordAt (img 0x4213 (0x4213 - 32)) 0x18 4 = 0x4213 ∧ (img 0x4213 (0x4213 - 32)).length = 0x4213 ∧
      wordAt (img 0x4213 (0x4213 - 32)) 0x1C 4 = 0x3000 ∧ fwFormatOk (img 0x4213 (0x4213 - 32)) = true ∧
      wordAt (img 0x4213 (0x4213 - 32)) 6 2 = 0x9600 ∧ wordAt (img 0x4213 (0x4213 - 32)) 8 1 = 0xB0 ∧
      wordAt (img 0x4213 (0x4213 - 32)) 9 1 = 1 ∧ wordAt (img 0x4213 (0x4213 - 32)) 0x0D 1 = 3 ∧
      wordAt (img 0x4213 (0x4213 - 32)) 0x0C 1 = 5 := by decide +kernel
  obtain ⟨b1, b2, b3, b4, b5, b6, b7, b8, b9⟩ := a1
  generalize img 0x4213 (0x4213 - 32) = m at *
  constructor <;> simp [Mgmt.fwCheck, Mgmt.keyOk, b1, b2, b3, b4, b5, b6, b7, b8, b9, h, sigSize]

/-- The same: memory ready and not; a start attempt of 30 s; a minute of full service; fuses behind; a mirror behind. -/
theorem wit_start :
    let on : Mc := { online := true, encReady := true }
    ({ mcs := (List.range 16).map fun i => (i, on) } : State).memoryReady = true ∧ ({} : State).memoryReady = false ∧
      max 0 5 + 30000000000 ≤ ({ sync := { clock := 30000000005 } } : State).now ∧
      ({ rst := { fullSince := some 1 }, sync := { clock := 60000000001 } } : State).minuteFull = true ∧
      (∀ e < 6, (({ opt := { engines := (List.range 6).map fun i => (i, { calDone := true }) } } : State).opt.engines.get {} e).calDone = true) ∧
      ({} : Mgmt).fuseFw < ({ fwSvn := 1, advance := true } : FwInfo).fwSvn ∧ ({ failCount := 1 } : Rst).retain ≠ ({ failCount := 1 } : Rst).mirror ∧
      ({ standby := true } : Mgmt).standby = true ∧ bits ((bx 0x10 [0, 5]).arg 1) 31 0 = 5 := by decide +kernel

/-- ManagementActs: caps, counts and sensor numbers at and beyond their ends; a rail inside its limits and beyond them for 100 µs; a queue of
one record; a token that nobody asked for; and, where signatures verify, one that is accepted. -/
theorem wit_management :
    (700 ≤ (2200 : Word).toNat ∧ (2200 : Word).toNat ≤ 2200) ∧ (699 : Word).toNat < 700 ∧ 2 ^ 16 ≤ (65536 : Word).toNat ∧
      73 ∉ List.range' 1 72 ++ List.range' 101 62 ++ [200] ∧ 100 ∉ List.range' 1 72 ++ List.range' 101 62 ++ [200] ∧
      162 ∈ List.range' 1 72 ++ List.range' 101 62 ++ [200] ∧ (List.replicate 62 600).length = 62 ∧ railOut 648 600 = false ∧
      railOut 649 600 = true ∧ railOut 552 600 = false ∧ railOut 551 600 = true ∧ ({} : State).nominal 0 = 600 ∧
      0 + 100000 ≤ ({ sync := { clock := 100000 } } : State).now ∧ ({} : Mgmt).flash.length < flashSize ∧ ({} : Mgmt).tokenOk [] = false ∧
      ({ identity := true } : Mgmt).identity = true ∧ ({ unit := unitHearth } : Who).remote = false := by decide +kernel

/-- A debug token of an unfused nonce 0 and identifier 0, all zero. -/
theorem wit_token (h : ∀ a b c, Config.mldsaOk a b c = true) (bs : List Byte) (e : wordAt bs 0 8 = 0 ∧ wordAt bs 8 32 = 0) :
    ({ dbgNonce := some 0, rootSet := true, rootHash := Config.sha3 (slice bs 49 pubSize) } : Mgmt).tokenOk bs = true := by
  simp [Mgmt.tokenOk, Mgmt.keyOk, e.1, e.2, h]


/-- WellFormed: the last thing of each kind passes, the first beyond it is refused. -/
theorem test_wf_core : (Instr.bundleIssue 31).wf = true ∧ (Instr.bundleIssue 32).wf = false ∧ (Instr.scAdd 32 1 2 3).wf = false ∧
    (Instr.lsTouch 32 []).wf = false := by decide
theorem test_wf_mover : (Instr.descriptorComplete 31 1 0).wf = true ∧ (Instr.descriptorComplete 31 2 0).wf = false ∧
    (Instr.descriptorComplete 32 1 0).wf = false := by decide
theorem test_wf_partition : (Instr.partitionHalt 7).wf = true ∧ (Instr.partitionHalt 8).wf = false ∧
    (Instr.panFlush { unit := 0x70 } 8).wf = false ∧ (Instr.collStart 8).wf = false := by decide
theorem test_wf_region : (Instr.regionWrite { unit := 0x70 } 7 255 0 0 0 0).wf = true ∧
    (Instr.regionWrite { unit := 0x70 } 7 256 0 0 0 0).wf = false ∧ (Instr.regionWrite { unit := 0x70 } 8 255 0 0 0 0).wf = false := by decide
theorem test_wf_slice : (Instr.panSplitWrite { unit := 0x70 } 7 7 0).wf = true ∧ (Instr.panSplitWrite { unit := 0x70 } 7 8 0).wf = false := by decide
theorem test_wf_controller : (Instr.mcThreshWrite { unit := 0x70 } 15 0).wf = true ∧ (Instr.mcThreshWrite { unit := 0x70 } 16 0).wf = false ∧
    (Instr.lpddr6ZeroDone 1).wf = true ∧ (Instr.lpddr6ZeroDone 2).wf = false := by decide
theorem test_wf_counter : (Instr.counterRead { unit := 0 } 65535).wf = true ∧ (Instr.counterRead { unit := 0 } 65536).wf = false ∧
    (Instr.counterSet { unit := 0 } 65536 0).wf = false := by decide
theorem test_wf_watch : (Instr.watchArm { unit := 0 } 4095 0 0 0 0).wf = true ∧
    (Instr.watchArm { unit := 0 } 4096 0 0 0 0).wf = false := by decide
theorem test_wf_group : (Instr.syncGroupWrite { unit := 0x70 } 255 0).wf = true ∧ (Instr.syncGroupWrite { unit := 0x70 } 256 0).wf = false := by
  decide
theorem test_wf_barrier : (Instr.barrierWrite { unit := 0x70 } 7 1023 0).wf = true ∧ (Instr.barrierWrite { unit := 0x70 } 7 1024 0).wf = false := by
  decide
theorem test_wf_tables : (Instr.routeWrite { unit := 0x70 } 16383 0).wf = true ∧ (Instr.routeWrite { unit := 0x70 } 16384 0).wf = false ∧
    (Instr.mcastWrite { unit := 0x70 } 4095 0).wf = true ∧ (Instr.mcastWrite { unit := 0x70 } 4096 0).wf = false := by decide
theorem test_wf_link : (Instr.leave 35 true).wf = true ∧ (Instr.leave 36 true).wf = false ∧ (Instr.release 35 { lane := 8, sweep := true }).wf = true ∧
    (Instr.release 35 { lane := 9 }).wf = false ∧ (Instr.calLoopbackTimer 36).wf = false := by decide
theorem test_wf_engine : (Instr.fadeWindow 5 []).wf = true ∧ (Instr.fadeWindow 6 []).wf = false := by decide
theorem test_wf_entry : (Instr.collDeadline 7 4095 0).wf = true ∧ (Instr.collDeadline 7 4096 0).wf = false := by decide
theorem test_wf_stream : (Instr.launch 7 63).wf = true ∧ (Instr.launch 7 64).wf = false ∧ (Instr.nop 8 63).wf = false := by decide
theorem test_wf_mailbox : (Instr.planLoad 8 63).wf = true ∧ (Instr.planLoad 9 63).wf = false ∧ (Instr.planLoad 8 64).wf = false ∧
    (Instr.mailboxArm 9 0 0).wf = false ∧ (Instr.bar2Read 9 0 4).wf = false := by decide
theorem test_wf_domain : (Instr.domainPowered 61).wf = true ∧ (Instr.domainPowered 62).wf = false := by decide
theorem test_wf_packet : (Instr.syncAdd { dst := 0xFFFF, src := 0x3FFF, cls := 3, ty := 15, len := 16, aux := 0xFFFF, payload := List.replicate 16 0 }).wf = true ∧
    (Instr.syncAdd { dst := 0x10000, src := 0, cls := 0, ty := 8, len := 16, payload := List.replicate 16 0 }).wf = false ∧
    (Instr.syncAdd { dst := 0, src := 0x4000, cls := 0, ty := 8, len := 16, payload := List.replicate 16 0 }).wf = false ∧
    (Instr.syncAdd { dst := 0, src := 0, cls := 4, ty := 8, len := 16, payload := List.replicate 16 0 }).wf = false ∧
    (Instr.syncAdd { dst := 0, src := 0, cls := 0, ty := 16, len := 16, payload := List.replicate 16 0 }).wf = false ∧
    (Instr.syncAdd { dst := 0, src := 0, cls := 0, ty := 8, len := 16, offset := 2 ^ 44, payload := List.replicate 16 0 }).wf = false ∧
    (Instr.syncAdd { dst := 0, src := 0, cls := 0, ty := 8, len := 16, payload := [] }).wf = false ∧
    (Instr.syncAdd { dst := 0, src := 0, cls := 0, ty := 8, len := 16, aux := 0x10000, payload := List.replicate 16 0 }).wf = false := by decide

/-- ResetIsStageEarly, StepsKeepMemoryCanonical: the memory after reset is canonical. -/
theorem wit_canonical : State.reset.mem.wf = true := by decide

open Sys2Proof.Num

/-- Tables 05-3 to 05-7: slot words written out bit by bit, one of each slot; a non-zero reserved bit and an unassigned opcode. -/
theorem test_words :
    ScOp.decode 0b00000000000000000000000000000000000000_000011_000010_000001_00000001 = some (.alu .add 1 2 3) ∧
    ScOp.decode 0b11111111111111111111111111111111111111_000000_000101_000000_00100001 = some (.brnz 5 (-1)) ∧
    ScOp.decode 0b00000000000000000000000000000000000001_000011_000010_000001_00000001 = none ∧
    ScOp.decode 0xFF = none ∧
    MvOp.decode 0b00000000000000000000_01_10_000000011_0000000010_000111_000110_1_00000010
      = some (.accst 1 6 7 2 3 .raw 1) ∧
    MmOp.decode 0b000000000_00_0_10_001_000011_000010_000001_0000000000_0000000000_1_00000001
      = some (.ld .fp8 1 1 2 3 1 2) ∧
    VeOp.decode 0b00000000000000000000000_00_0_000000_1_011_00111_00110_00101_00100_00001011
      = some (.tri .fmaF32 4 5 (.v 6) 7 { pm := 3, zero := 1 }) ∧
    Bundle.decode 0 = some {} := by decide +kernel

/-- Table 02-9. -/
theorem test_scalar_conversions :
    let sat (t : Ty) (x : Nat) := convert t (Mode.ofCode 0) 0 (f32 x)
    let nsat (t : Ty) (x : Nat) := convert t (Mode.ofCode 2) 0 (f32 x)
    sat .e4m3 0x43E80000 = (0x7E, {}) ∧ sat .e4m3 0x43EB0000 = (0x7E, { ovf := true }) ∧
      nsat .e4m3 0x43EB0000 = (0x7F, { ovf := true }) ∧ sat .e5m2 0x47700000 = (0x7B, { ovf := true }) ∧
      nsat .e5m2 0x47700000 = (0x7C, { ovf := true }) ∧ sat .fp16 0x477FF000 = (0x7BFF, { ovf := true }) ∧
      nsat .fp16 0x477FF000 = (0x7C00, { ovf := true }) ∧ nsat .e5m2 0x7F800000 = (0x7C, {}) ∧
      nsat .e4m3 0x7F800000 = (0x7F, { ovf := true }) ∧ sat .e5m2 0xFFA00000 = (0x7E, { nanin := true }) ∧
      sat .e4m3 0x3B400000 = (0x02, { unf := true }) ∧ sat .bf16 0x3F808000 = (0x3F80, {}) ∧
      sat .bf16 0x3F818000 = (0x3F82, {}) := by decide +kernel

/-- The stochastic rounding example of chapter 02. -/
theorem test_stochastic :
    (convert .e4m3 (Mode.ofCode 1) 0x7FFF (f32 0x3F880000)).1 = 0x38 ∧
      (convert .e4m3 (Mode.ofCode 1) 0x8000 (f32 0x3F880000)).1 = 0x39 := by decide +kernel

/-- The block of 32 into FP4 of chapter 02, and the same block with a NaN. -/
theorem test_fp4_block :
    let first := [0x41F00000, 0x41A00000, 0x41200000, 0x40E00000, 0xBF800000]
    let blk (l : List Nat) := (l ++ List.replicate (32 - l.length) 0).map fun x => (f32 x, 0)
    let r := convertBlockAuto .e2m1 (Mode.ofCode 0) (blk first)
    let q := convertBlockAuto .e2m1 (Mode.ofCode 0) (blk (first ++ [0x7FC00000]))
    r.1 = 0x81 ∧ r.2.1.take 6 = [7, 6, 4, 4, 8, 0] ∧ r.2.2 = { esat := true, unf := true } ∧
      q.1 = 0xFF ∧ q.2.1.all (· == 0) = true ∧ q.2.2 = { nanscale := true } := by decide +kernel

/-- Table 03-10: the two groups of C[0][0], the FP32 read-out, and Table 03-11's sum of re-blocked elements. -/
theorem test_groups :
    let v (x : Nat) := Ty.e4m3.decode x
    let g0 := addGroup .fp8 0 [(v 0x7E, v 0x7E), (v 0x01, v 0x01)] 0x7E 0x81
    let g1 := addGroup .fp8 0x423100000 [(v 0xFE, v 0x38), (v 0, v 0)] 0x7E 0x81
    g0.1 = 0x423100000 ∧ g1.1 = 0x4230E4000 ∧ (readF32 false (Mode.ofCode 0) 0 0x4230E4000) = (0x48C39000, {}) ∧
      (addGroup .fp8 0 [(v 0x38, v 0x38), (v 0x01, v 0x38)] 0x80 0x7F).1 = 0x400010000 ∧
      (readF32 false (Mode.ofCode 0) 0 0x400010000).1 = 0x40004000 := by decide +kernel

/-- The worked example of chapter 06: the target of the address, and the sums in ascending and in arrival order. -/
theorem test_deferred :
    targetOf 0x010020003040 = 8 + 5 ∧ addF32 (addF32 (addF32 0 0x3F800000) 0x33800000) 0x33800000 = 0x3F800000 ∧
      addF32 (addF32 (addF32 0 0x33800000) 0x33800000) 0x3F800000 = 0x3F800001 := by decide +kernel

/-- The barrier of Table 07-9, before its arrivals. -/
def bar (odd even round : Word) : Sync :=
  { groups := [(1, { valid := true, remAdd := true })], counters := [(0x0101, round), (0x0102, even), (0x0103, odd)],
    provs := [(0x0101, round), (0x0102, even), (0x0103, odd)],
    barriers := [(3, { a := 0x0100, n := 4, valid := true })] }

/-- The counters of the barrier after an arrival, or the code of its refusal. -/
def barAfter (odd even round v : Word) : Except Code (Word × Word × Word) :=
  match (bar odd even round).add1 { who := { unit := 0x68, remote := true, srcId := 1 }, i := 0x0100, v := v } with
  | (some c, _) => .error c
  | (none, r) => .ok (r.1.counters.get 0 0x0103, r.1.counters.get 0 0x0102, r.1.counters.get 0 0x0101)

/-- Table 07-9: an arrival of this round, one of the next that is banked, one refused, and the arrivals that complete rounds. -/
theorem test_barrier :
    (match barAfter 0 0 7 7 with | .ok r => r | .error _ => (0, 0, 0)) = (1, 0, 7) ∧
      (match barAfter 3 0 7 4 with | .ok r => r | .error _ => (0, 0, 0)) = (3, 1, 7) ∧
      (match barAfter 3 2 7 5 with | .ok _ => 0 | .error c => c) = Err.barrierOverrun ∧
      (match barAfter 3 2 7 7 with | .ok r => r | .error _ => (0, 0, 0)) = (0, 2, 8) ∧
      (match barAfter 0 3 8 4 with | .ok r => r | .error _ => (0, 0, 0)) = (0, 0, 9) := by decide +kernel

/-- The header words of chapter 08's worked example. -/
theorem test_header :
    ({ dst := 0x015, src := 0x0040, cls := 1, ty := 5, len := 0x2000, mcast := true } : Pkt).word0 = 0x0420000A40400015 ∧
      ({ dst := 0x0040, src := 0x0048, cls := 1, ty := 10, len := 16, hops := 1, seq := 0x31, aux := 0x0601 } : Pkt).word0
        = 0x0040101440480040 := by decide +kernel

/-- The migration of chapter 09's worked example: announced first in slot 0x43, it takes effect in slot 0x48. -/
theorem test_migration : up8 (0x43 + 4) = 0x48 := by decide
end Sys2Proof.Tests
end

section
/-! # Holds, launches, wait limits and partition halts: the settlement of O17 -/

namespace Sys2Proof

open Sys2Proof.Machine

/-! ## The hold ends: the stored bundle issues -/

/-- The next bundle of a core is the stored one: to issue it is to issue what its word spells. -/
theorem issue_stored_eq {s : State} {c : Nat} {l : Launch} {b : Bundle} (hl : (s.coreAhead c).block = some l)
    (hd : Bundle.decode ((s.coreAhead c).bundles.get 0 (4096 * l.half + (s.coreAhead c).pc)) = some b)
    (hw : (b.mm.wf && b.ve.wf) = true) : s.issue c none = s.issue c (some b) := by
  have hnow : (s.settleCore c []).issueNow c none = (s.settleCore c []).issueNow c (some b) := by
    simp only [State.coreAhead, State.ahead] at hl hd
    unfold State.issueNow
    simp only [hl, hd, hw, if_true]
  unfold State.issue
  simp only [hnow]

/-- The word of zeroes spells the bundle of four empty slots. -/
theorem decode_zero : Bundle.decode 0 = some {} := by decide +kernel

/-- A bundle of empty slots moves the core one cycle on. -/
theorem issueSlots_empty (x : Site) (k : Core) :
    issueSlots x {} k = { core := { afterBundle k.branch k with cycle := k.cycle + 1 }, faults := [], ext := [] } := rfl

/-- A ready core whose stored word is zero passes one bundle. -/
theorem issue_empty {s : State} {c : Nat} {l : Launch} (h : Ready s c l)
    (hz : (s.coreAhead c).bundles.get 0 (4096 * l.half + (s.coreAhead c).pc) = 0) :
    ∃ t, s.issue c none = .next t ∧ t.core c =
      { afterBundle (s.coreAhead c).branch (s.coreAhead c) with cycle := (s.coreAhead c).cycle + 1 } := by
  rw [issue_stored_eq h.block (b := {}) (by rw [hz, decode_zero]) rfl]
  have hrun := afterBundle_not_halted (o := (s.coreAhead c).branch) (mayIssue_not_halted h.after)
  exact ⟨_, issue_core h {} rfl rfl _ (issueSlots_empty _ _) hrun, State.modCore_core_same (s.ahead c) c fun _ => _⟩

/-! ## A launch starts -/

theorem gRead_gWrite_same (k : Core) {r : Nat} (hr : r ≠ 0) (v : Word) : gRead (gWrite k r v) r = v := by
  simp [gRead, gWrite, hr]

theorem gRead_gWrite_other (k : Core) {r q : Nat} (h : q ≠ r) (v : Word) : gRead (gWrite k r v) q = gRead k q := by
  unfold gRead gWrite
  split
  · rfl
  · split
    · rfl
    · exact Tab.get_set_other 0 k.g v h

/-- To note a write of a general register changes the trace alone. -/
theorem noteG_eq (x : Site) (r : Nat) (k : Core) : noteG x r k = { k with trace := (noteG x r k).trace } := by
  unfold noteG note
  split
  · rfl
  · split <;> rfl

/-- R95, R101: a core whose launch has started, but for its trace. -/
def launched (k : Core) (l : Launch) (rest : List Launch) : Core :=
  { gWrite k 1 l.arg with block := some l, launches := rest, pc := 0, branch := none, run := .issuing }

theorem startLaunch_core (s : State) (c : Nat) (l : Launch) (rest : List Launch) :
    ∃ tr, (s.startLaunch c l rest).core c = { launched (s.core c) l rest with trace := tr } := by
  unfold State.startLaunch
  rw [State.modCore_core_same]
  exact ⟨_, noteG_eq ..⟩

theorem startLaunch_core_other (s : State) {c d : Nat} (l : Launch) (rest : List Launch) (h : d ≠ c) :
    (s.startLaunch c l rest).core d = s.core d := State.modCore_core_other s c d _ h

/-! ## A wait beyond its limit -/

/-- What neither log records, nor partitions, nor the core's own record hold, a fault of a core leaves alone. -/
theorem coreFaults_sync (s : State) (c : Nat) (fs : List Flt) : (s.coreFaults c fs).sync = s.sync := by
  have hlog : ∀ l, (s.logAll l).sync = s.sync := logAll_frame (·.sync) (fun _ _ _ => rfl) (fun _ _ => rfl) s
  have hhalt : ∀ (t : State) l, (t.coreHalt c l).sync = t.sync := by
    intro t l
    unfold State.coreHalt
    split
    · rfl
    · dsimp only
      split <;> rfl
  unfold State.coreFaults
  split
  · rfl
  · simp only [hhalt]
    split
    · rw [State.modPart_sync, hlog]
    · exact hlog _

/-- The first code that a core meets stands in its register (R121). -/
theorem fault_one_errCode {k : Core} (h : k.err = false) (f : Flt) : (k.fault [f]).errCode = f.code := by
  simp [Core.fault, recordErr, lowest, first, h]

/-- A key that no entry names reads as the default. -/
theorem Tab.get_of_not_listed {α : Type} (d : α) {k : Nat} : ∀ {t : Tab α}, (∀ e ∈ t, e.1 ≠ k) → t.get d k = d
  | [], _ => rfl
  | e :: r, h => by
    have hr : Tab.get d r k = d := Tab.get_of_not_listed d fun x hx => h x (List.mem_cons_of_mem e hx)
    simpa [Tab.get, h e List.mem_cons_self] using hr

/-- A slot whose watches are cancelled, whatever they wait for, is empty. -/
theorem cancel_get {x : Sync} {p : Nat → Watch → Bool} {i : Nat} (h : ∀ w, p i w = true) :
    (x.cancel p).watches.get none i = none := by
  refine Tab.get_of_not_listed none fun e he => ?_
  obtain ⟨-, hkeep⟩ := List.mem_filter.1 he
  rintro rfl
  split at hkeep
  · rename_i w _
    simp [h w] at hkeep
  · cases hkeep

/-- The condition that a wait of core `c` ends with (R113). -/
def limitFault (s : State) (c : Nat) (w : Machine.Waiting) : Flt :=
  { code := Err.waitLimit, addr := w.bundle, slot := 0, prov := w.prov.bind (provTag (s.env c)), stream := w.stream }

/-- Core `c` waits no more, and its own watch is gone. -/
def waitOver (s : State) (c : Nat) : State :=
  (s.modCore c fun y => { y with waiting := none }).cancelWatches fun i _ => i == 4064 + c

theorem exec_waitLimit {s : State} {c : Nat} {w : Machine.Waiting} (hc : c < 32) (hw : (s.core c).waiting = some w)
    (hr : (s.core c).run = .held) (hn : (s.core c).waitLimit ≠ 0)
    (ht : 1000 * (s.core c).waitLimit.toNat < s.now - w.since) :
    exec (.waitLimit c) s =
      .next { (waitOver s c).coreFaults c [limitFault s c w] with answer := .refused Err.waitLimit } := by
  change execWaitLimit c s = _
  unfold execWaitLimit
  simp only [hw]
  rw [guarded_of ?_, done_eq]
  · rfl
  · -- the zero that `simp` looks for is the literal
    have hlimit : (s.core c).waitLimit ≠ 0#32 := hn
    simp [hc, hr, hlimit, ht]

theorem waitOver_core (s : State) (c : Nat) : (waitOver s c).core c = { s.core c with waiting := none } :=
  State.modCore_core_same s c fun y => { y with waiting := none }

/-! ## A partition halts -/

/-- What each step of a fold leaves alone, the fold leaves alone. -/
theorem foldl_frame {σ α β : Type} (π : σ → β) {f : σ → α → σ} (h : ∀ s x, π (f s x) = π s) :
    ∀ (l : List α) (s : σ), π (l.foldl f s) = π s
  | [], _ => rfl
  | x :: l, s => (foldl_frame π h l (f s x)).trans (h s x)

/-- The cores of a partition are those that it holds (R307). -/
theorem mem_cores_iff (x : Part) (c : Nat) : c ∈ x.cores ↔ x.holds c = true := by
  unfold Part.cores Part.holds
  by_cases hv : x.valid = true
  · simp only [hv, if_true, List.mem_map, List.mem_range, Bool.true_and, Bool.and_eq_true, decide_eq_true_eq]
    constructor
    · rintro ⟨n, hn, rfl⟩
      omega
    · rintro ⟨h1, h2⟩
      exact ⟨c - x.first, by omega, by omega⟩
  · simp [hv]

/-- A fold that gives the cores of a list to an idempotent update reaches exactly those cores. -/
theorem foldl_modCore_core {f : Core → Core} (hf : ∀ k, f (f k) = f k) (d : Nat) : ∀ (l : List Nat) (s : State),
    (l.foldl (fun u c => u.modCore c f) s).core d = if d ∈ l then f (s.core d) else s.core d
  | [], _ => rfl
  | c :: l, s => by
    rw [List.foldl_cons, foldl_modCore_core hf d l]
    by_cases hd : d = c
    · subst hd
      simp [hf]
    · simp [hd, State.modCore_core_other s c d f hd]

/-- What neither a mailbox, nor the list of what leaves the module, nor a stream holds, the end of a partition's streams leaves
alone. -/
theorem endStreams_frame {β : Type} (π : State → β) (p : Nat)
    (hm : ∀ (s : State) f m g o, π { s.modMbox f m g with out := o } = π s)
    (hs : ∀ (s : State) k g, π (s.modStream p k g) = π s) (s : State) (code : Code) (fault : Option Nat) :
    π (s.endStreams p code fault) = π s := by
  have hfin : ∀ (t : State) l d, π (t.endList l code d) = π t := by
    intro t l d
    unfold State.endList State.finish
    dsimp only
    split
    · rfl
    · exact hm ..
  refine foldl_frame π (fun t k => ?_) _ s
  unfold State.endStream
  dsimp only
  rw [hs]
  split
  · rfl
  · rw [foldl_frame π fun u q => hfin u q 0, hfin]

@[simp] theorem endStreams_cores (s : State) (p : Nat) (code : Code) (k : Option Nat) :
    (s.endStreams p code k).cores = s.cores :=
  endStreams_frame (·.cores) p (fun _ _ _ _ _ => rfl) (fun _ _ _ => rfl) s code k

@[simp] theorem endStreams_mem (s : State) (p : Nat) (code : Code) (k : Option Nat) : (s.endStreams p code k).mem = s.mem :=
  endStreams_frame (·.mem) p (fun _ _ _ _ _ => rfl) (fun _ _ _ => rfl) s code k

@[simp] theorem endStreams_commit (s : State) (p : Nat) (code : Code) (k : Option Nat) :
    ((s.endStreams p code k).part p).commit = (s.part p).commit :=
  endStreams_frame (fun t => (t.part p).commit) p (fun _ _ _ _ _ => rfl)
    (fun t i g => by unfold State.modStream; rw [State.modPart_part_same]) s code k

theorem passEnds_none {s : State} {p : Nat} (h : (s.part p).commit = none) : s.passEnds p = s := by
  simp [State.passEnds, h]

/-- A core that its partition's halt has stopped (R120). -/
def stopped (k : Core) : Core := { k with run := .halted, waiting := none }

/-- The cores of a partition stopped. -/
def coresStopped (s : State) (p : Nat) : State := (s.part p).cores.foldl (fun u c => u.modCore c stopped) s

/-- Its watches cancelled and its streams ended, too (R181, R313). -/
def workEnded (s : State) (p : Nat) (code : Code) (k : Option Nat) : State :=
  ((coresStopped s p).cancelWatches fun i _ => s.partWatch p i).endStreams p code k

/-- A halted partition as it reads (R120). -/
def haltedPart (code : Code) (x : Part) : Part := { x with halted := true, haltCode := code, haltReq := none, commit := none }

theorem haltPart_eq (s : State) (p : Nat) (code : Code) (k : Option Nat) : s.haltPart p code k =
    (((workEnded s p code k).passEnds p).modPart p (haltedPart code)).setEvents 1
      fun f y => f == 0 || y.bound == some p := rfl

theorem haltPart_part (s : State) (p : Nat) (code : Code) (k : Option Nat) :
    (s.haltPart p code k).part p = haltedPart code (((workEnded s p code k).passEnds p).part p) := by
  rw [haltPart_eq, setEvents_frame (fun t => t.part p) (fun _ _ _ => rfl), State.modPart_part_same]

theorem coresStopped_core (s : State) (p c : Nat) :
    (coresStopped s p).core c = if (s.part p).holds c = true then stopped (s.core c) else s.core c := by
  rw [coresStopped, foldl_modCore_core (f := stopped) fun _ => rfl]
  simp only [mem_cores_iff]

theorem coresStopped_mem (s : State) (p : Nat) : (coresStopped s p).mem = s.mem :=
  foldl_frame (·.mem) (f := fun u c => u.modCore c stopped) (fun _ _ => rfl) _ s

theorem coresStopped_parts (s : State) (p : Nat) : (coresStopped s p).parts = s.parts :=
  foldl_frame (·.parts) (f := fun u c => u.modCore c stopped) (fun _ _ => rfl) _ s

theorem workEnded_core (s : State) (p : Nat) (code : Code) (k : Option Nat) (c : Nat) :
    (workEnded s p code k).core c = if (s.part p).holds c = true then stopped (s.core c) else s.core c := by
  rw [← coresStopped_core]
  unfold State.core
  rw [workEnded, endStreams_cores]
  rfl

theorem workEnded_mem (s : State) (p : Nat) (code : Code) (k : Option Nat) : (workEnded s p code k).mem = s.mem := by
  rw [workEnded, endStreams_mem]
  exact coresStopped_mem s p

theorem workEnded_commit (s : State) (p : Nat) (code : Code) (k : Option Nat) :
    ((workEnded s p code k).part p).commit = (s.part p).commit := by
  rw [workEnded, endStreams_commit]
  exact congrArg (fun x => (Tab.get {} x p).commit) (coresStopped_parts s p)

/-- With no COMMIT under way a partition's halt reaches its own cores alone. -/
theorem haltPart_core {s : State} {p : Nat} (h : (s.part p).commit = none) (code : Code) (k : Option Nat) (c : Nat) :
    (s.haltPart p code k).core c = if (s.part p).holds c = true then stopped (s.core c) else s.core c := by
  rw [haltPart_eq, setEvents_frame (fun t => t.core c) (fun _ _ _ => rfl), State.modPart_core,
    passEnds_none ((workEnded_commit ..).trans h), workEnded_core]

theorem haltPart_mem {s : State} {p : Nat} (h : (s.part p).commit = none) (code : Code) (k : Option Nat) :
    (s.haltPart p code k).mem = s.mem := by
  rw [haltPart_eq, setEvents_mem, State.modPart_mem, passEnds_none ((workEnded_commit ..).trans h), workEnded_mem]

/-- Beside the answer, the command makes of the module what the halt makes of it. -/
theorem exec_partitionHalt {s : State} {p : Nat} {code : Code} {k : Option Nat} (hp : p < 8)
    (h : (s.part p).haltReq = some (code, k)) :
    ∃ t, exec (.partitionHalt p) s = .next t ∧ t.part p = (s.haltPart p code k).part p ∧
      (∀ c, t.core c = (s.haltPart p code k).core c) ∧ t.mem = (s.haltPart p code k).mem := by
  change ∃ t, execPartitionHalt p s = _ ∧ _
  simp only [execPartitionHalt, hp, h, decide_true, guarded_true, served_eq]
  generalize s.haltPart p code k = u
  exact ⟨_, rfl, rfl, fun _ => rfl, rfl⟩

/-! ## The obligation -/

/-- Settles O17: each of the four commands passes its guard, and what it then makes of the module is read off field by field. -/
theorem holdsLaunchesAndHalts : Obligations.HoldsLaunchesAndHalts := by
  unfold Obligations.HoldsLaunchesAndHalts
  refine ⟨fun s c hc => ⟨?wake, ?launch, ?limit⟩, ?halt⟩
  case wake =>
    intro hr hw hd l hl u hready hz
    have hx : exec (.coreWake c) s = u.issue c none := by
      change execCoreWake c s = _
      unfold execCoreWake
      rw [guarded_of (by simp [hc, hr, hw, hd, hl])]
    exact hx ▸ issue_empty hready hz
  case launch =>
    intro l rest p hq hb hw hr hd hs hcp hp ht hh
    obtain ⟨tr, hcore⟩ := startLaunch_core s c l rest
    have hx : exec (.launchStart c) s = served (s.startLaunch c l rest) := by
      change execLaunchStart c s = _
      unfold execLaunchStart
      simp only [hq, hp, Option.map_some, Option.getD_some]
      exact guarded_of (by simp [hc, hb, hw, hr, hd, hs, hcp, hh, Launch.allowed, ht]) _ _
    exact ⟨_, hx, congrArg Core.block hcore, congrArg Core.launches hcore, congrArg Core.pc hcore, congrArg Core.run hcore,
      (congrArg (gRead · 1) hcore).trans (gRead_gWrite_same (s.core c) (by decide) l.arg),
      fun r h => (congrArg (gRead · r) hcore).trans (gRead_gWrite_other (s.core c) h l.arg),
      fun d h => startLaunch_core_other s l rest h, rfl⟩
  case limit =>
    intro w hw hr hn ht
    have hcore : ((waitOver s c).coreFaults c [limitFault s c w]).core c
        = ({ s.core c with waiting := none } : Core).fault [limitFault s c w] := by
      rw [coreFaults_core, waitOver_core]
    refine ⟨_, exec_waitLimit hc hw hr hn ht, coreFaults_run _ _ (by simp), ?_, fun he => ?_, coreFaults_mem .., ?_⟩
    · exact congrArg Core.waiting hcore
    · exact (congrArg Core.errCode hcore).trans (fault_one_errCode he _)
    · change ((waitOver s c).coreFaults c [limitFault s c w]).sync.watches.get none (4064 + c) = none
      rw [coreFaults_sync]
      exact cancel_get fun _ => beq_self_eq_true _
  case halt =>
    intro s p code k hp hreq
    obtain ⟨t, hx, hpart, hcore, hmem⟩ := exec_partitionHalt hp hreq
    rw [haltPart_part] at hpart
    refine ⟨t, hx, congrArg Part.halted hpart, congrArg Part.haltCode hpart, congrArg Part.haltReq hpart,
      congrArg Part.commit hpart, fun hcm => ⟨fun c hh => ?_, fun c hh => ?_, hmem.trans (haltPart_mem hcm code k)⟩⟩
    · rw [hcore, haltPart_core hcm, if_pos hh]
      rfl
    · rw [hcore, haltPart_core hcm, if_neg (by simp [hh])]

end Sys2Proof
end

section
/-! # Arrivals at a barrier and the rounds they complete: the settlement of O27 -/

namespace Sys2Proof

open Sys2Proof.Machine

/-! ## The views of the counters -/

/-- The counters in one view (R115). -/
def Machine.Sync.view (x : Sync) (prov : Bool) : Tab Word := if prov then x.provs else x.counters

/-- The sync unit with one view of its counters replaced. -/
def Machine.Sync.withView (x : Sync) (prov : Bool) (t : Tab Word) : Sync :=
  if prov then { x with provs := t } else { x with counters := t }

theorem val_eq_view_get (x : Sync) (prov : Bool) : x.val prov = (x.view prov).get 0 := by
  cases prov <;> rfl

theorem modView_eq_withView (x : Sync) (prov : Bool) (i : Nat) (f : Word → Word) :
    x.modView prov i f = x.withView prov ((x.view prov).mod 0 i f) := by
  cases prov <;> rfl

@[simp] theorem withView_view (x : Sync) (prov : Bool) : x.withView prov (x.view prov) = x := by
  cases prov <;> rfl

@[simp] theorem view_withView (x : Sync) (prov : Bool) (t : Tab Word) : (x.withView prov t).view prov = t := by
  cases prov <;> rfl

@[simp] theorem withView_withView (x : Sync) (prov : Bool) (t u : Tab Word) :
    (x.withView prov t).withView prov u = x.withView prov u := by
  cases prov <;> rfl

@[simp] theorem withView_watches (x : Sync) (prov : Bool) (t : Tab Word) : (x.withView prov t).watches = x.watches := by
  cases prov <;> rfl

/-! ## Tests that fire nothing -/

/-- A test that selects no armed watch changes nothing and sends nothing. -/
theorem fire_none {x : Sync} {p : Watch → Bool} (h : ∀ e ∈ x.watches, ∀ w, e.2 = some w → p w = false) :
    x.fire p = (x, [], []) := by
  unfold Sync.fire
  refine List.foldlRecOn (motive := fun acc => acc = (x, [], [])) _ _ rfl ?_
  rintro _ rfl ⟨slot, o⟩ he
  cases o with
  | none => rfl
  | some w => simp [h _ he w rfl]

theorem testCounter_unwatched {x : Sync} {i : Nat} (h : x.unwatched i) : x.testCounter i = (x, [], []) := by
  refine fire_none fun e he w hw => ?_
  obtain hc | hi := h e he w hw
  · simp [hc]
  · simp [hi]

/-- No armed watch waits for one of the four counters of barrier `b` (R170). -/
def Machine.Sync.Unwatched4 (x : Sync) (b : Barrier) : Prop := ∀ k < 4, x.unwatched (b.a + k)

theorem Machine.Sync.Unwatched4.withView {x : Sync} {b : Barrier} (h : x.Unwatched4 b) (prov : Bool) (t : Tab Word) :
    (x.withView prov t).Unwatched4 b := by
  unfold Sync.Unwatched4 Sync.unwatched at *
  rwa [withView_watches]

/-- Where no watch fired, nothing follows. -/
theorem follow_nil (x : Sync) (ns : List Note) : Sync.follow (x, [], ns) = (x, ns) := rfl

/-! ## What an arrival makes of one view -/

/-- ROUND in one view. -/
def Machine.Barrier.round (b : Barrier) (t : Tab Word) : Word := t.get 0 (b.a + 1)

/-- The slot counter of the current round, or of the next one. -/
def Machine.Barrier.slot (b : Barrier) (t : Tab Word) (next : Bool) : Nat :=
  b.a + 2 + ((b.round t).toNat + next.toNat) % 2

/-- One view after its round has completed (R173). -/
def Machine.Barrier.advance (b : Barrier) (t : Tab Word) : Tab Word :=
  (t.mod 0 (b.slot t false) fun _ => 0).mod 0 (b.a + 1) (· + 1)

/-- One view after the rounds that complete, at most `n` of them (R173). -/
def Machine.Barrier.advances (b : Barrier) : Nat → Tab Word → Tab Word
  | 0, t => t
  | n + 1, t => if (t.get 0 (b.slot t false)).toNat = b.n then b.advances n (b.advance t) else t

/-- One view after an arrival, with the code of its refusal (R171 to R173). -/
def Machine.Barrier.arrival (b : Barrier) (v : Word) (t : Tab Word) : Option Code × Tab Word :=
  match b.judge (b.round t) (t.get 0) v with
  | .error c => (some c, t)
  | .ok (slot, w) => (none, b.advances 2 (t.mod 0 slot (· + BitVec.ofNat 64 w)))

/-- A slot that takes weight is one of the barrier's two. -/
theorem judge_slot {b : Barrier} {round v : Word} {f : Nat → Word} {slot w : Nat} (h : b.judge round f v = .ok (slot, w)) :
    ∃ k < 4, slot = b.a + k := by
  unfold Barrier.judge at h
  simp only at h
  split_ifs at h
  all_goals
    cases h
    exact ⟨_, by omega, Nat.add_assoc ..⟩

theorem rounds_eq_advances {b : Barrier} (prov : Bool) : ∀ (n : Nat) {x : Sync}, x.Unwatched4 b →
    Sync.rounds b prov n (x, [], []) = (x.withView prov (b.advances n (x.view prov)), [], [])
  | 0, x, _ => by simp [Sync.rounds, Barrier.advances]
  | n + 1, x, h => by
    have hfull : x.roundFull b prov = decide (((x.view prov).get 0 (b.slot (x.view prov) false)).toNat = b.n) := by
      rw [Sync.roundFull, val_eq_view_get]
      rfl
    have hdone : x.completeRound b prov = x.withView prov (b.advance (x.view prov)) := by
      simp only [Sync.completeRound, modView_eq_withView, val_eq_view_get, view_withView, withView_withView]
      rfl
    simp only [Sync.rounds, Barrier.advances, hfull, decide_eq_true_eq]
    split
    · have hx := h.withView prov (b.advance (x.view prov))
      simp only [hdone, thenTest, testCounter_unwatched (hx 1 (by omega)), List.append_nil]
      rw [rounds_eq_advances prov n hx, view_withView, withView_withView]
    · rw [withView_view]

/-- What an arrival makes of the sync unit, judged in one view (R172, R174). -/
def Machine.Sync.arriveView (x : Sync) (b : Barrier) (v : Word) (view : Bool) : Option Code × Sync × List Add × List Note :=
  match x.arrive b view v with
  | .error c => (some c, x, [], [])
  | .ok (z, slot) => (none, Sync.rounds b view 2 (z.testCounter slot))

/-- Unwatched, the arrival moves the one view, by what that view holds. -/
theorem arriveView_eq_arrival {x : Sync} {b : Barrier} (h : x.Unwatched4 b) (v : Word) (view : Bool) :
    x.arriveView b v view =
      ((b.arrival v (x.view view)).1, x.withView view (b.arrival v (x.view view)).2, [], []) := by
  unfold Sync.arriveView Sync.arrive Barrier.arrival Barrier.round
  rw [val_eq_view_get]
  cases hj : b.judge ((x.view view).get 0 (b.a + 1)) ((x.view view).get 0) v with
  | error c => simp
  | ok p =>
    obtain ⟨slot, w⟩ := p
    obtain ⟨k, hk, rfl⟩ := judge_slot hj
    have hx := h.withView view ((x.view view).mod 0 (b.a + k) (· + BitVec.ofNat 64 w))
    simp only [modView_eq_withView, testCounter_unwatched (hx k hk)]
    rw [rounds_eq_advances view 2 hx, view_withView, withView_withView]

/-- What is reported of an arrival that moves both views: the provisional view's refusal, where it is that view's alone (log entry 102). -/
def Machine.Barrier.reports (b : Barrier) (r : SWho) (committed prov : Option Code) : List Note :=
  match prov with
  | some c => if committed = some c then [] else [.refused c b.a r]
  | none => []

theorem arriveAll_eq (x : Sync) (r : SWho) (b : Barrier) (v : Word) :
    x.arriveAll r b v = if r.prov then x.arriveView b v true else
      let p := x.arriveView b v false
      let q := p.2.1.arriveView b v true
      (p.1, q.2.1, p.2.2.1 ++ q.2.2.1, p.2.2.2 ++ q.2.2.2 ++ b.reports r p.1 q.1) := rfl

theorem arriveAll_prov {x : Sync} {r : SWho} {b : Barrier} (hr : r.prov = true) (h : x.Unwatched4 b) (v : Word) :
    x.arriveAll r b v = ((b.arrival v x.provs).1, { x with provs := (b.arrival v x.provs).2 }, [], []) := by
  rw [arriveAll_eq, if_pos hr, arriveView_eq_arrival h]
  rfl

theorem arriveAll_committed {x : Sync} {r : SWho} {b : Barrier} (hr : r.prov = false) (h : x.Unwatched4 b) (v : Word) :
    x.arriveAll r b v = ((b.arrival v x.counters).1,
      { x with counters := (b.arrival v x.counters).2, provs := (b.arrival v x.provs).2 }, [],
      b.reports r (b.arrival v x.counters).1 (b.arrival v x.provs).1) := by
  have hq := h.withView false (b.arrival v (x.view false)).2
  rw [arriveAll_eq, if_neg (by simp [hr])]
  simp only [arriveView_eq_arrival h, arriveView_eq_arrival hq]
  rfl

/-! ## The command -/

theorem syncRefuse_counters (s : State) (r : SWho) (kind i : Nat) (c : Code) (addr : Nat) :
    (s.syncRefuse r kind i c addr).sync.counters = s.sync.counters ∧
      (s.syncRefuse r kind i c addr).sync.provs = s.sync.provs := by
  have hlog : ∀ (t : State) a, (t.log a).sync = t.sync := log_frame (·.sync) (fun _ _ _ => rfl) fun _ _ => rfl
  unfold State.syncRefuse State.syncLog Sync.capture
  rw [hlog]
  dsimp only
  split <;> exact ⟨rfl, rfl⟩

/-- The module after an ADD at counter `i` with code `o` as its refusal: captured and logged where there is one. -/
def Machine.State.refusedAt (s : State) (r : SWho) (i : Nat) (o : Option Code) : State :=
  match o with
  | none => s
  | some c => s.syncRefuse r 2 i c

theorem refusedAt_counters (s : State) (r : SWho) (i : Nat) (o : Option Code) :
    (s.refusedAt r i o).sync.counters = s.sync.counters ∧ (s.refusedAt r i o).sync.provs = s.sync.provs := by
  cases o with
  | none => exact ⟨rfl, rfl⟩
  | some c => exact syncRefuse_counters ..

/-- What the provisional view alone refuses is reported and moves no counter. -/
theorem deliver_reports_counters (s : State) (b : Barrier) (r : SWho) (p q : Option Code) :
    (s.deliver (b.reports r p q)).sync.counters = s.sync.counters ∧
      (s.deliver (b.reports r p q)).sync.provs = s.sync.provs := by
  unfold Barrier.reports
  split
  · split
    · exact ⟨rfl, rfl⟩
    · exact syncRefuse_counters ..
  · exact ⟨rfl, rfl⟩

theorem counterAdd_of_add1 {s : State} {r : SWho} {i : Nat} {v : Word} {o : Option Code} {y : Sync} {ns : List Note}
    (h : s.sync.add1 { who := r, i := i, v := v } = (o, y, [], ns)) :
    s.counterAdd r i v = (o, ({ s with sync := y }.deliver ns).refusedAt r i o) := by
  simp only [State.counterAdd, Sync.add, h, follow_nil]
  cases o <;> rfl

/-- The reply to a command that asked for one operation. -/
def replyOf (o : Option Code) : Ans :=
  match o with
  | none => .ok []
  | some c => .refused c

theorem answer_eq_replyOf (x : Option Code × State) : answer x = .next { x.2 with answer := replyOf x.1 } := by
  obtain ⟨o, t⟩ := x
  cases o <;> rfl

theorem exec_counterAdd {i : Nat} (hi : i < 65536) (s : State) (r : SWho) (v : Word) :
    exec (.counterAdd r i v) s =
      .next { (s.counterAdd r i v).2 with answer := replyOf (s.counterAdd r i v).1 } := by
  change execCounterAdd r i v s = _
  rw [execCounterAdd, guarded_of (decide_eq_true hi), answer_eq_replyOf]

/-- An ADD to the arrival counter `i` of barrier `b` that its requester may make, while no watch waits for the
barrier's counters (R160, R163, R170). -/
structure MayArrive (s : State) (r : SWho) (i : Nat) (b : Barrier) : Prop where
  bound : i < 65536
  permit : s.sync.permit r .add i = none
  scope : r.prov = true → (s.sync.group i).epoch = true
  barrier : s.sync.barrierOf i = some b
  here : b.a = i
  quiet : s.sync.Unwatched4 b

/-- Who may arrive may arrive provisionally at an epoch-scoped barrier: permission does not read PROV. -/
theorem MayArrive.provisional {s : State} {r : SWho} {i : Nat} {b : Barrier} (h : MayArrive s r i b)
    (he : (s.sync.group i).epoch = true) : MayArrive s { r with prov := true } i b :=
  { h with permit := h.permit, scope := fun _ => he }

theorem MayArrive.add1_eq {s : State} {r : SWho} {i : Nat} {b : Barrier} (h : MayArrive s r i b) (v : Word) :
    s.sync.add1 { who := r, i := i, v := v } = s.sync.arriveAll r b v := by
  have hscope : (r.prov && !(s.sync.group i).epoch) = false := by
    cases hp : r.prov
    · rfl
    · simp [h.scope hp]
  simp [Sync.add1, h.permit, hscope, h.barrier, h.here]

/-- R172, R174: the requester's own view gives the answer, and each view that the arrival moves becomes what the arrival makes
of that view alone. -/
theorem exec_arrive {s : State} {r : SWho} {i : Nat} {b : Barrier} (h : MayArrive s r i b) (v : Word) :
    ∃ t, exec (.counterAdd r i v) s = .next t ∧ t.answer = replyOf (b.arrival v (s.sync.view r.prov)).1 ∧
      t.sync.view r.prov = (b.arrival v (s.sync.view r.prov)).2 ∧ t.sync.provs = (b.arrival v s.sync.provs).2 ∧
      (r.prov = true → t.sync.counters = s.sync.counters) := by
  refine ⟨_, exec_counterAdd h.bound s r v, ?_⟩
  cases hp : r.prov with
  | true =>
    rw [counterAdd_of_add1 ((h.add1_eq v).trans (arriveAll_prov hp h.quiet v))]
    obtain ⟨hc, hv⟩ := refusedAt_counters ({ s with sync := { s.sync with provs := (b.arrival v s.sync.provs).2 } }.deliver [])
      r i (b.arrival v s.sync.provs).1
    exact ⟨rfl, hv, hv, fun _ => hc⟩
  | false =>
    rw [counterAdd_of_add1 ((h.add1_eq v).trans (arriveAll_committed hp h.quiet v))]
    generalize hu : { s with sync := _ } = u
    obtain ⟨hc, hv⟩ := deliver_reports_counters u b r (b.arrival v s.sync.counters).1 (b.arrival v s.sync.provs).1
    obtain ⟨hc', hv'⟩ := refusedAt_counters (u.deliver (b.reports r (b.arrival v s.sync.counters).1 (b.arrival v s.sync.provs).1))
      r i (b.arrival v s.sync.counters).1
    subst hu
    exact ⟨rfl, hc'.trans hc, hv'.trans hv, by simp⟩

/-- The view of its requester after an arrival. -/
theorem exec_arrive_view {s : State} {r : SWho} {i : Nat} {b : Barrier} (h : MayArrive s r i b) {v : Word} {u : Tab Word}
    (ha : b.arrival v (s.sync.view r.prov) = (none, u)) :
    ∃ t, exec (.counterAdd r i v) s = .next t ∧ t.answer = .ok [] ∧ ∀ j, t.sync.val r.prov j = u.get 0 j := by
  obtain ⟨t, hx, hok, hview, -, -⟩ := exec_arrive h v
  rw [ha] at hok hview
  exact ⟨t, hx, hok, fun j => by rw [val_eq_view_get, hview]⟩

/-- A refused arrival moves no committed counter, and a provisional one none at all. -/
theorem exec_arrive_refused {s : State} {r : SWho} {i : Nat} {b : Barrier} (h : MayArrive s r i b) {v : Word} {c : Code}
    (ha : b.arrival v (s.sync.view r.prov) = (some c, s.sync.view r.prov)) :
    ∃ t, exec (.counterAdd r i v) s = .next t ∧ t.answer = .refused c ∧ t.sync.counters = s.sync.counters ∧
      (r.prov = true → t.sync.provs = s.sync.provs) := by
  obtain ⟨t, hx, hno, hview, -, hcount⟩ := exec_arrive h v
  rw [ha] at hno hview
  refine ⟨t, hx, hno, ?_⟩
  cases hp : r.prov with
  | true => exact ⟨hcount hp, fun _ => by simpa [hp, Sync.view] using hview⟩
  | false => exact ⟨by simpa [hp, Sync.view] using hview, by simp⟩

/-! ## The judgements of Table 07-8, in one view -/

/-- An arrival word in form: its weight, with the bits above it, is at least 1 and at most 8,191 (Table 07-7). -/
def ArrivalForm (v : Word) : Prop := v.toNat / 4 ≠ 0 ∧ v.toNat / 4 < 8192

theorem ArrivalForm.weight {v : Word} (h : ArrivalForm v) : ¬ (v.toNat / 4 = 0 ∨ 8192 ≤ v.toNat / 4) :=
  not_or.2 ⟨h.1, Nat.not_le.2 h.2⟩

/-- One view with the weight of `v` in the slot of the current or of the next round. -/
def Machine.Barrier.bank (b : Barrier) (v : Word) (t : Tab Word) (next : Bool) : Tab Word :=
  t.mod 0 (b.slot t next) (· + BitVec.ofNat 64 (v.toNat / 4))

section
variable {b : Barrier} {v : Word} {t : Tab Word}

theorem arrival_malformed (h : ¬ ArrivalForm v) : b.arrival v t = (some Err.barrierForm, t) := by
  have hw : v.toNat / 4 = 0 ∨ 8192 ≤ v.toNat / 4 := by
    unfold ArrivalForm at h
    omega
  simp only [Barrier.arrival, Barrier.judge, if_pos hw]

theorem arrival_overrun (h : ArrivalForm v) (hl : v.toNat % 4 = ((b.round t).toNat + 2) % 4) :
    b.arrival v t = (some Err.barrierOverrun, t) := by
  simp only [Barrier.arrival, Barrier.judge, if_neg h.weight, if_pos hl]

theorem arrival_stale (h : ArrivalForm v) (hl : v.toNat % 4 = ((b.round t).toNat + 3) % 4) :
    b.arrival v t = (some Err.barrierStale, t) := by
  have ho : ¬ v.toNat % 4 = ((b.round t).toNat + 2) % 4 := by omega
  simp only [Barrier.arrival, Barrier.judge, if_neg h.weight, if_neg ho, if_pos hl]

/-- An arrival at the current or at the next round is judged by what that round's slot holds. -/
theorem judge_near {next : Bool} (h : ArrivalForm v) (hl : v.toNat % 4 = ((b.round t).toNat + next.toNat) % 4) :
    b.judge (b.round t) (t.get 0) v = if b.n < (t.get 0 (b.slot t next)).toNat + v.toNat / 4 then .error Err.barrierExcess
      else .ok (b.slot t next, v.toNat / 4) := by
  have hb := next.toNat_le
  have ho : ¬ v.toNat % 4 = ((b.round t).toNat + 2) % 4 := by omega
  have hs : ¬ v.toNat % 4 = ((b.round t).toNat + 3) % 4 := by omega
  have hslot : b.a + 2 + (if v.toNat % 4 = (b.round t).toNat % 4 then (b.round t).toNat % 2 else ((b.round t).toNat + 1) % 2)
      = b.slot t next := by
    cases next with
    | false => rw [if_pos (by simpa using hl)]; rfl
    | true => rw [if_neg (by simp only [Bool.toNat_true] at hl; omega)]; rfl
  simp only [Barrier.judge, if_neg h.weight, if_neg ho, if_neg hs, hslot]

theorem arrival_excess {next : Bool} (h : ArrivalForm v) (hl : v.toNat % 4 = ((b.round t).toNat + next.toNat) % 4)
    (hn : b.n < (t.get 0 (b.slot t next)).toNat + v.toNat / 4) : b.arrival v t = (some Err.barrierExcess, t) := by
  simp only [Barrier.arrival, judge_near h hl, if_pos hn]

theorem arrival_taken {next : Bool} (h : ArrivalForm v) (hl : v.toNat % 4 = ((b.round t).toNat + next.toNat) % 4)
    (hn : (t.get 0 (b.slot t next)).toNat + v.toNat / 4 ≤ b.n) : b.arrival v t = (none, b.advances 2 (b.bank v t next)) := by
  simp only [Barrier.arrival, judge_near h hl, if_neg (Nat.not_lt.2 hn)]
  rfl

/-! ## Full rounds -/

theorem slot_ne_round (b : Barrier) (t : Tab Word) (next : Bool) : b.a + 1 ≠ b.slot t next := by
  unfold Barrier.slot
  omega

theorem slot_false_ne_true (b : Barrier) (t : Tab Word) : b.slot t false ≠ b.slot t true := by
  simp only [Barrier.slot, Bool.toNat_false, Bool.toNat_true]
  omega

/-- A weight in a slot moves no round, and so neither slot's place. -/
@[simp] theorem slot_bank (b : Barrier) (v : Word) (t : Tab Word) (next q : Bool) :
    b.slot (b.bank v t next) q = b.slot t q := by
  have hround : b.round (b.bank v t next) = b.round t := Tab.get_mod_other _ _ _ (slot_ne_round b t next)
  rw [Barrier.slot, hround, Barrier.slot]

theorem bank_get (b : Barrier) (v : Word) (t : Tab Word) (next : Bool) (j : Nat) : (b.bank v t next).get 0 j =
    if j = b.slot t next then t.get 0 (b.slot t next) + BitVec.ofNat 64 (v.toNat / 4) else t.get 0 j :=
  Tab.get_mod ..

/-- No slot that may take the weight wraps: N has 24 bits (Table 07-21). -/
theorem bank_get_toNat {next : Bool} (hb : b.n < 2 ^ 24) (hn : (t.get 0 (b.slot t next)).toNat + v.toNat / 4 ≤ b.n) :
    ((b.bank v t next).get 0 (b.slot t next)).toNat = (t.get 0 (b.slot t next)).toNat + v.toNat / 4 := by
  rw [bank_get, if_pos rfl, BitVec.toNat_add, BitVec.toNat_ofNat]
  omega

theorem advance_get (b : Barrier) (t : Tab Word) (j : Nat) : (b.advance t).get 0 j =
    if j = b.slot t false then 0 else if j = b.a + 1 then t.get 0 j + 1 else t.get 0 j := by
  rw [Barrier.advance, Tab.get_mod, Tab.get_mod_other _ _ _ (slot_ne_round b t false), Tab.get_mod]
  by_cases hj : j = b.a + 1
  · simp [hj, slot_ne_round]
  · simp [hj]

/-- The banked slot is that of the new round, and the next one takes the place of the round that has completed. -/
theorem slot_advance (b : Barrier) (t : Tab Word) : b.slot (b.advance t) false = b.slot t true := by
  have hround : b.round (b.advance t) = b.round t + 1 := by
    rw [Barrier.round, advance_get, if_neg (slot_ne_round b t false), if_pos rfl]
    rfl
  rw [Barrier.slot, Barrier.slot, hround, BitVec.toNat_add]
  simp only [Bool.toNat_false, Bool.toNat_true]
  have : (1 : Word).toNat = 1 := rfl
  omega

theorem advances_of_not_full {n : Nat} (h : (t.get 0 (b.slot t false)).toNat ≠ b.n) : b.advances n t = t := by
  cases n with
  | zero => rfl
  | succ n => rw [Barrier.advances, if_neg h]

theorem advances_of_full {n : Nat} (h : (t.get 0 (b.slot t false)).toNat = b.n) :
    b.advances (n + 1) t = b.advances n (b.advance t) := by
  rw [Barrier.advances, if_pos h]

/-- What decides on a second completion: the banked slot, which the first one leaves alone. -/
theorem advance_next_get (b : Barrier) (t : Tab Word) :
    (b.advance t).get 0 (b.slot (b.advance t) false) = t.get 0 (b.slot t true) := by
  rw [slot_advance, advance_get, if_neg (slot_false_ne_true b t).symm, if_neg (slot_ne_round b t true).symm]

theorem advances_two_of_not_full (h : (t.get 0 (b.slot t false)).toNat = b.n) (hn : (t.get 0 (b.slot t true)).toNat ≠ b.n) :
    b.advances 2 t = b.advance t := by
  rw [advances_of_full h, advances_of_not_full (by rwa [advance_next_get])]

theorem advances_two_of_full (h : (t.get 0 (b.slot t false)).toNat = b.n) (hn : (t.get 0 (b.slot t true)).toNat = b.n) :
    b.advances 2 t = b.advance (b.advance t) := by
  rw [advances_of_full h, advances_of_full (by rwa [advance_next_get])]
  rfl

/-- Two rounds that complete together empty both slots. -/
theorem advance_advance_get (b : Barrier) (t : Tab Word) (j : Nat) : (b.advance (b.advance t)).get 0 j =
    if j = b.slot t false ∨ j = b.slot t true then 0 else if j = b.a + 1 then t.get 0 j + 2 else t.get 0 j := by
  rw [advance_get, slot_advance, advance_get]
  by_cases hj : j = b.a + 1
  · simp [hj, slot_ne_round, BitVec.add_assoc]
  · by_cases h0 : j = b.slot t false
    · simp [h0, (slot_ne_round b t false).symm]
    · simp [hj, h0]

/-! ## What an accepted arrival leaves -/

theorem bank_get_other (b : Barrier) (v : Word) (t : Tab Word) {j : Nat} (h : j ≠ b.slot t false) :
    (b.bank v t false).get 0 j = t.get 0 j := by
  rw [bank_get, if_neg h]

theorem bank_next_get (b : Barrier) (v : Word) (t : Tab Word) :
    (b.bank v t false).get 0 (b.slot (b.bank v t false) true) = t.get 0 (b.slot t true) := by
  rw [slot_bank, bank_get_other b v t (slot_false_ne_true b t).symm]

theorem arrival_below (hb : b.n < 2 ^ 24) (h : ArrivalForm v) (hl : v.toNat % 4 = (b.round t).toNat % 4)
    (hn : (t.get 0 (b.slot t false)).toNat + v.toNat / 4 < b.n) : b.arrival v t = (none, b.bank v t false) := by
  rw [arrival_taken (next := false) h hl hn.le, advances_of_not_full]
  rw [slot_bank, bank_get_toNat hb hn.le]
  exact hn.ne

theorem arrival_banked (h : ArrivalForm v) (hl : v.toNat % 4 = ((b.round t).toNat + 1) % 4)
    (hc : (t.get 0 (b.slot t false)).toNat ≠ b.n) (hn : (t.get 0 (b.slot t true)).toNat + v.toNat / 4 ≤ b.n) :
    b.arrival v t = (none, b.bank v t true) := by
  rw [arrival_taken (next := true) h hl hn, advances_of_not_full]
  rwa [slot_bank, bank_get, if_neg (slot_false_ne_true b t)]

section
variable (hb : b.n < 2 ^ 24) (h : ArrivalForm v) (hl : v.toNat % 4 = (b.round t).toNat % 4)
  (hn : (t.get 0 (b.slot t false)).toNat + v.toNat / 4 = b.n)
include hb hn

theorem bank_full : ((b.bank v t false).get 0 (b.slot (b.bank v t false) false)).toNat = b.n := by
  rw [slot_bank, bank_get_toNat hb hn.le, hn]

include h hl

theorem arrival_completes (hx : (t.get 0 (b.slot t true)).toNat ≠ b.n) :
    b.arrival v t = (none, b.advance (b.bank v t false)) := by
  rw [arrival_taken (next := false) h hl hn.le, advances_two_of_not_full (bank_full hb hn) (by rwa [bank_next_get])]

theorem arrival_completes_two (hx : (t.get 0 (b.slot t true)).toNat = b.n) :
    b.arrival v t = (none, b.advance (b.advance (b.bank v t false))) := by
  rw [arrival_taken (next := false) h hl hn.le, advances_two_of_full (bank_full hb hn) (by rwa [bank_next_get])]

end

theorem advance_bank_get (b : Barrier) (v : Word) (t : Tab Word) (j : Nat) : (b.advance (b.bank v t false)).get 0 j =
    if j = b.slot t false then 0 else if j = b.a + 1 then t.get 0 j + 1 else t.get 0 j := by
  rw [advance_get, slot_bank]
  split_ifs with hj
  · rfl
  all_goals rw [bank_get_other b v t hj]

theorem advance_advance_bank_get (b : Barrier) (v : Word) (t : Tab Word) (j : Nat) :
    (b.advance (b.advance (b.bank v t false))).get 0 j =
      if j = b.slot t false ∨ j = b.slot t true then 0 else if j = b.a + 1 then t.get 0 j + 2 else t.get 0 j := by
  rw [advance_advance_get, slot_bank, slot_bank]
  split_ifs with hj
  · rfl
  all_goals rw [bank_get_other b v t fun hc => hj (.inl hc)]

end

/-! ## The obligation -/

/-- Settles O27: the arrival is judged and completed in each view by what that view holds (`exec_arrive`), and Tables 07-7 and
07-8 and R173 are read off one view. -/
theorem barrierRounds : Obligations.BarrierRounds := by
  unfold Obligations.BarrierRounds
  intro s r i v b hi hperm hscope hbar ha hn hquiet
  subst ha
  have may : MayArrive s r b.a b := ⟨hi, hperm, hscope, hbar, rfl, hquiet⟩
  rw [val_eq_view_get]
  have refuse := @exec_arrive_refused s r b.a b may v
  have give := @exec_arrive_view s r b.a b may v
  generalize s.sync.view r.prov = t at refuse give ⊢
  intro now round lo w cur next form refused gives
  refine ⟨fun hf => refuse (arrival_malformed hf), fun hf hl => refuse (arrival_overrun hf hl),
    fun hf hl => refuse (arrival_stale hf hl), fun hf hl hx => refuse (arrival_excess (next := false) hf hl hx),
    fun hf hl hx => refuse (arrival_excess (next := true) hf hl hx), ?below, ?banked, ?full, ?bothFull, ?provisional⟩
  case below =>
    intro hf hl hlt
    obtain ⟨u, hx, hok, hval⟩ := give (arrival_below hn hf hl hlt)
    exact ⟨u, hx, hok, fun j => (hval j).trans (bank_get b v t false j)⟩
  case banked =>
    intro hf hl hne hle
    obtain ⟨u, hx, hok, hval⟩ := give (arrival_banked hf hl hne hle)
    exact ⟨u, hx, hok, fun j => (hval j).trans (bank_get b v t true j)⟩
  case full =>
    intro hf hl heq hne
    obtain ⟨u, hx, hok, hval⟩ := give (arrival_completes hn hf hl heq hne)
    exact ⟨u, hx, hok, fun j => (hval j).trans (advance_bank_get b v t j)⟩
  case bothFull =>
    intro hf hl heq hnext
    obtain ⟨u, hx, hok, hval⟩ := give (arrival_completes_two hn hf hl heq hnext)
    exact ⟨u, hx, hok, fun j => (hval j).trans (advance_advance_bank_get b v t j)⟩
  case provisional =>
    intro hp he
    obtain ⟨t', hx, -, -, ht, -⟩ := exec_arrive may v
    obtain ⟨u, hy, -, -, hu, -⟩ := exec_arrive (may.provisional he) v
    exact ⟨t', u, hx, hy, ht.trans hu.symm⟩
end Sys2Proof
end
